-- ==== Sys2Proof/Word.lean ====
section
/-! DEFINITION. The value types of the FSK modem core: bit, byte, 32-bit register word, and the three sequence
types of the operand buffers' elements that are plain bits and bytes (00_scope R11, 10_state R21, R22, R34). -/

namespace Sys2Proof

/-- A Bit, 0 or 1 (00_scope R11): `true` is the bit 1. -/
abbrev Bit := Bool

/-- A byte, 0 to 255; bit 7 is the most significant one and is sent first (00_scope R11). -/
abbrev Byte := BitVec 8

/-- A register as the host sees it: 32 bits (10_state R34). -/
abbrev Word := BitVec 32

/-- A Text is a sequence of bytes (42_framecodec R160). -/
abbrev Text := List Byte

/-- A finite sequence of Bits; index 0 is the first bit transmitted or received (00_scope R11). -/
abbrev Bitstream := List Bit

end Sys2Proof
end

