-- ==== Sys2Proof/Config.lean ====
section
/-! DEFINITION. What is fixed when a core is built (the configuration CFG and the capacities, 00_scope R5, R9), the
constants of the wire format (00_scope R6), the exact sample type and the magnitude type (00_scope R8), what the
environment may answer (00_scope R12), and the free values: opaque constants that nothing can evaluate. -/

namespace Sys2Proof

/-- One audio sample (00_scope R8: the sample format is no source's, and a model with finite arithmetic takes a numerics
record over its own). `rat q` is the number q, which every sample of a PCM device is; `sine amp f n fs` is
amp * sin (2 * pi * f * n / fs) and `add x y` a sum, so that the exact tones of the reference semantics are samples too.
What a sample stands for over the reals is `sampleValue` (Machine/Reference.lean). DESIGN CHOICE, log entry 2. -/
inductive Sample where
  | rat (q : Rat)
  | sine (amp : Rat) (f n fs : Nat)
  | add (x y : Sample)
  deriving DecidableEq, Repr, Inhabited

/-- The type of a spectral magnitude and of CFG.THRESH: totally ordered (00_scope R8). DESIGN CHOICE, log entry 3. -/
abbrev Mag := Rat

/-- The opaque name by which the outbox knows an entry (10_state R30): nothing but equality is ever asked of it. -/
structure Handle where
  name : Nat
  deriving DecidableEq, Repr, Inhabited

/-- One pending text message of the outbox (20_memory R72). -/
structure Entry where
  handle : Handle
  text : Text
  deriving DecidableEq, Repr, Inhabited

/-- What the audio device answers to AudioRecord(n) (20_memory R70): a failure, or the samples heard. A recording is
the first n of `heard`; where `heard` is shorter, the samples it does not give are free values. -/
inductive RecordReply where
  | ok (heard : List Sample)
  | fail
  deriving DecidableEq, Repr, Inhabited

/-- What AudioPlay and OutboxRemove answer (20_memory R71, R73). -/
inductive Reply where
  | ok
  | fail
  deriving DecidableEq, Repr, Inhabited

/-- What decides OutboxFirst (20_memory R72): the listing fails, or it gives the entry at `k` modulo the number of
entries present, so every entry is some choice and no order is relied upon. -/
inductive FirstReply where
  | pick (k : Nat)
  | fail
  deriving DecidableEq, Repr, Inhabited

/-- The configuration structure CFG (00_scope R5) and the buffer capacities (00_scope R9; `none` is "unbounded").
Fixed at construction: no operation and no host action changes it (10_state R32). -/
structure Cfg where
  /-- CFG.FS, sample rate in Hz. -/
  fs : Nat
  /-- CFG.T_BIT_US, bit duration in microseconds. -/
  tBitUs : Nat
  /-- CFG.F_MARK, the tone of bit 1, in Hz. -/
  fMark : Nat
  /-- CFG.F_SPACE, the tone of bit 0, in Hz. -/
  fSpace : Nat
  /-- CFG.BAND_HW, half-width of the spectral window in Hz. -/
  bandHw : Nat
  /-- CFG.THRESH, the energy threshold of decode_bit. -/
  thresh : Mag
  /-- CFG.NOISE_BITS, the noise floor of the ChannelSensor in decoded bits. -/
  noiseBits : Nat
  /-- CFG.T_TICK_MS, the gap between ticks. -/
  tTickMs : Nat
  /-- CFG.T_SENSE_MS, the sense window of a tick. -/
  tSenseMs : Nat
  /-- CFG.T_LISTEN_MS, the listen window of a tick. -/
  tListenMs : Nat
  /-- TB_CAP in bytes. -/
  tbCap : Option Nat
  /-- BB_CAP in bits. -/
  bbCap : Option Nat
  /-- SB_CAP in samples. -/
  sbCap : Option Nat
  deriving DecidableEq, Repr

/-- The construction values `State.reset` is written with. 44100, 20, 500, 1000 and 5000 are the source's (00_scope
R5). DESIGN CHOICE, log entry 4: the five OPEN fields are those of the spec's test configuration TCFG-B (92 D24), and
the capacities are the largest that 41_frame_primitives R149(c) allows. Statements quantify over every configuration. -/
def Cfg.reference : Cfg where
  fs := 44100
  tBitUs := 10000
  fMark := 2000
  fSpace := 1000
  bandHw := 150
  thresh := 1
  noiseBits := 20
  tTickMs := 500
  tSenseMs := 1000
  tListenMs := 5000
  tbCap := some 4294967295
  bbCap := some 4294967295
  sbCap := some 4294967295

/-- SYNCWORD, 1010101010101010, first transmitted bit on the left (00_scope R6). -/
def syncword : Bitstream :=
  [true, false, true, false, true, false, true, false, true, false, true, false, true, false, true, false]

/-- CRC_POLY (00_scope R6). -/
def crcPoly : Byte := 0x07#8

/-- CRC_INIT (00_scope R6). -/
def crcInit : Byte := 0x00#8

/-- AMP, half of full scale, full scale being 1 (00_scope R6, 92 D8). -/
def toneAmp : Rat := mkRat 1 2

/-- The numerics record NUM (00_scope R8): two total functions that depend on their arguments and on CFG alone. -/
structure Numerics where
  /-- NUM.tone(f, n), the n-th sample of the tone of frequency f (40_tonecodec R121). -/
  tone : Cfg → Nat → Nat → Sample
  /-- NUM.bandmag(x, f), the mean magnitude of the chunk x in the window of the frequency f (40_tonecodec R123). -/
  bandmag : Cfg → List Sample → Nat → Mag
  deriving Inhabited

/-! ## Free values: no body, nothing evaluates them -/

/-- Any numerics record at all (00_scope R8, 93 U4, U16). The machine's own, `Machine.theNum` (Machine/ToneCodec.lean),
is this one where it has ToneRoundTrip. Log entry 3. -/
opaque Config.anyNum : Numerics

/-- The answer of the audio device to a recording that no pending answer covers: any value (93 U6). Log entry 6. -/
opaque Config.freeRecord : Nat → RecordReply

/-- Sample j of recording number k where the pending answer gives none: any value (93 U6). Log entry 6. -/
opaque Config.freeSample : Nat → Nat → Sample

/-- The answer of the audio device to a playback that no pending answer covers. Log entry 6. -/
opaque Config.freePlay : Nat → Reply

/-- The outbox's choice where no pending answer covers it: any value (93 U1). Log entry 6. -/
opaque Config.freeFirst : Nat → FirstReply

/-- The outbox's answer to a removal that no pending answer covers. Log entry 6. -/
opaque Config.freeRemove : Nat → Reply

/-- What register ENTRY_H reads as while ENTRY.V = 0: any value (93 U7). Log entry 7. -/
opaque Config.freeEntryH : Nat → Word

/-- The platform's 32-bit representation of a Handle (10_state R34, number 7; 93 U8). Log entry 7. -/
opaque Config.handleWord : Handle → Word

/-- The 32-bit representation of CFG.THRESH in register CFG_THRESH (10_state R32: a parameter). Log entry 7. -/
opaque Config.magWord : Mag → Word

/-- What a 32-bit register shows of a number that 32 bits cannot hold: the spec states no value. Log entry 8. -/
opaque Config.freeWide : Nat → Word

/-- MARKER_SYNC_NOT_FOUND, the host's string for SyncNotFound (60_exceptions R238; 93 U14). Log entry 15. -/
opaque Config.markerSyncNotFound : String

end Sys2Proof
end

