-- ==== Sys2Proof/Syntax.lean ====
section
/-! DEFINITION. The 22 operations of the core (00_scope R2, 30_encoding R96), one constructor per row of the operation
map, their mnemonics and the textual form of 30_encoding R100. -/

namespace Sys2Proof

/-- ChannelState {Busy, Free} (00_scope glossary). As a bit it is 1 `Busy`, 0 `Free` (10_state R28). -/
inductive ChanState where
  | free
  | busy
  deriving DecidableEq, Repr, Inhabited

/-- The operations of 30_encoding R96 with their immediate operands (R95). Durations are in milliseconds. -/
inductive Instr where
  | encbit (b : Bit)
  | decbit
  | mod
  | demod
  | unpack
  | pack
  | renc
  | rdec
  | crc8
  | fsync
  | build
  | parse
  | classify
  | sense (ms : Nat)
  | decideAct (hasEntry : Bit) (chan : ChanState)
  | chkout
  | xmit
  | remove
  | listen (ms : Nat)
  | tick
  | run
  | recv (ms : Nat)
  deriving DecidableEq, Repr

/-- The mnemonic column of 30_encoding R96. -/
def Instr.mnemonic : Instr → String
  | .encbit _ => "ENCBIT"
  | .decbit => "DECBIT"
  | .mod => "MOD"
  | .demod => "DEMOD"
  | .unpack => "UNPACK"
  | .pack => "PACK"
  | .renc => "RENC"
  | .rdec => "RDEC"
  | .crc8 => "CRC8"
  | .fsync => "FSYNC"
  | .build => "BUILD"
  | .parse => "PARSE"
  | .classify => "CLASSIFY"
  | .sense _ => "SENSE"
  | .decideAct _ _ => "DECIDE"
  | .chkout => "CHKOUT"
  | .xmit => "XMIT"
  | .remove => "REMOVE"
  | .listen _ => "LISTEN"
  | .tick => "TICK"
  | .run => "RUN"
  | .recv _ => "RECV"

/-- One digit for a bit operand of the textual form. -/
def bitDigit : Bit → String
  | false => "0"
  | true => "1"

/-- The textual form: the mnemonic, then the immediate in decimal where the operation takes one, `has_entry` before
`chan` (30_encoding R100). -/
def Instr.text (i : Instr) : String :=
  match i with
  | .encbit b => i.mnemonic ++ " " ++ bitDigit b
  | .sense ms | .listen ms | .recv ms => i.mnemonic ++ " " ++ toString ms
  | .decideAct e c => i.mnemonic ++ " " ++ bitDigit e ++ " " ++ bitDigit (c == .busy)
  | .decbit | .mod | .demod | .unpack | .pack | .renc | .rdec | .crc8 | .fsync | .build | .parse | .classify
  | .chkout | .xmit | .remove | .tick | .run => i.mnemonic

end Sys2Proof
end

