-- ==== Sys2Proof/WellFormed.lean ====
section
/-! DEFINITION. Which terms of `Instr` a command word can stand for: a duration is a 24-bit number (30_encoding R95).
Every other operand is legal by its type. -/

namespace Sys2Proof

/-- A duration operand fits the 24-bit immediate: 0 to 16777215 (30_encoding R95). -/
def immFits (ms : Nat) : Bool := decide (ms < 16777216)

/-- An instruction some command word encodes (30_encoding R94, R95). -/
def Instr.wellFormed : Instr → Bool
  | .sense ms => immFits ms
  | .listen ms => immFits ms
  | .recv ms => immFits ms
  | .encbit _ | .decbit | .mod | .demod | .unpack | .pack | .renc | .rdec | .crc8 | .fsync | .build | .parse
  | .classify | .decideAct _ _ | .chkout | .xmit | .remove | .tick | .run => true

end Sys2Proof
end

