-- ==== Sys2Proof/Decode.lean ====
section
/-! DEFINITION. The command word (30_encoding R94 to R97): the decoder, total on every 32-bit word and rejecting by
name; the encoder from the same table; and the host's way to ask the decoder about one row of the opcode table. -/

namespace Sys2Proof

/-- Why a command word is illegal (30_encoding R97). -/
inductive DecodeError where
  /-- OP is not in the table of R96. -/
  | unassignedOpcode (op : BitVec 8)
  /-- OP is legal and IMM has a bit set that R95 says must be 0. -/
  | reservedImmediate (op : BitVec 8)
  deriving DecidableEq, Repr

/-- CMD[31:24] (30_encoding R94). -/
def opField (w : Word) : BitVec 8 := w.extractLsb' 24 8

/-- CMD[23:0] (30_encoding R94). -/
def immField (w : Word) : BitVec 24 := w.extractLsb' 0 24

/-- An operation whose IMM must be 0 above bit `low` (30_encoding R95). -/
def withReserved (op : BitVec 8) (imm : BitVec 24) (low : Nat) (i : Instr) : Except DecodeError Instr :=
  if imm >>> low = 0 then .ok i else .error (.reservedImmediate op)

/-- ChannelState from the bit IMM[1] of DECIDE: 1 Busy, 0 Free (30_encoding R95). -/
def chanOfBit (b : Bit) : ChanState := if b then .busy else .free

/-- 1 `Busy`, 0 `Free` (10_state R24, R28). -/
def ChanState.bit : ChanState → Bit
  | .free => false
  | .busy => true

/-- Decode by OP and IMM (the table of 30_encoding R96, the immediates of R95, the illegal words of R97). -/
def decodeFields (op : BitVec 8) (imm : BitVec 24) : Except DecodeError Instr :=
  match op.toNat with
  | 0x01 => withReserved op imm 1 (.encbit (imm.getLsbD 0))
  | 0x02 => withReserved op imm 0 .decbit
  | 0x03 => withReserved op imm 0 .mod
  | 0x04 => withReserved op imm 0 .demod
  | 0x10 => withReserved op imm 0 .unpack
  | 0x11 => withReserved op imm 0 .pack
  | 0x12 => withReserved op imm 0 .renc
  | 0x13 => withReserved op imm 0 .rdec
  | 0x14 => withReserved op imm 0 .crc8
  | 0x18 => withReserved op imm 0 .fsync
  | 0x19 => withReserved op imm 0 .build
  | 0x1A => withReserved op imm 0 .parse
  | 0x20 => withReserved op imm 0 .classify
  | 0x21 => .ok (.sense imm.toNat)
  | 0x30 => withReserved op imm 2 (.decideAct (imm.getLsbD 0) (chanOfBit (imm.getLsbD 1)))
  | 0x31 => withReserved op imm 0 .chkout
  | 0x32 => withReserved op imm 0 .xmit
  | 0x33 => withReserved op imm 0 .remove
  | 0x34 => .ok (.listen imm.toNat)
  | 0x35 => withReserved op imm 0 .tick
  | 0x36 => withReserved op imm 0 .run
  | 0x40 => .ok (.recv imm.toNat)
  | _ => .error (.unassignedOpcode op)

/-- The decoder of a word written to CMD. -/
def decode (w : Word) : Except DecodeError Instr := decodeFields (opField w) (immField w)

/-- The OP column of 30_encoding R96. -/
def Instr.opcode : Instr → BitVec 8
  | .encbit _ => 0x01#8
  | .decbit => 0x02#8
  | .mod => 0x03#8
  | .demod => 0x04#8
  | .unpack => 0x10#8
  | .pack => 0x11#8
  | .renc => 0x12#8
  | .rdec => 0x13#8
  | .crc8 => 0x14#8
  | .fsync => 0x18#8
  | .build => 0x19#8
  | .parse => 0x1A#8
  | .classify => 0x20#8
  | .sense _ => 0x21#8
  | .decideAct _ _ => 0x30#8
  | .chkout => 0x31#8
  | .xmit => 0x32#8
  | .remove => 0x33#8
  | .listen _ => 0x34#8
  | .tick => 0x35#8
  | .run => 0x36#8
  | .recv _ => 0x40#8

/-- IMM of an instruction (30_encoding R95). -/
def Instr.imm : Instr → BitVec 24
  | .encbit b => BitVec.ofNat 24 b.toNat
  | .sense ms => BitVec.ofNat 24 ms
  | .listen ms => BitVec.ofNat 24 ms
  | .recv ms => BitVec.ofNat 24 ms
  | .decideAct e c => BitVec.ofNat 24 (e.toNat + 2 * c.bit.toNat)
  | .decbit | .mod | .demod | .unpack | .pack | .renc | .rdec | .crc8 | .fsync | .build | .parse | .classify
  | .chkout | .xmit | .remove | .tick | .run => 0#24

/-- The command word of a well-formed instruction: OP in the upper byte, IMM below (30_encoding R94). -/
def encode (i : Instr) : Word := i.opcode ++ i.imm

/-- What the decoder reads from a row of the opcode table: the table's bit 0 is the word's bit 0, and the bits above
`nbits` are 0. A command word is one 32-bit register write, so no byte order arises (20_memory R61, R68). -/
def decodeTableWord (nbits w : Nat) : Option Instr :=
  match decode (BitVec.ofNat 32 (w % 2 ^ nbits)) with
  | .ok i => some i
  | .error _ => none

end Sys2Proof
end

