-- ==== Sys2Proof/Machine/State.lean ====
section
/-! DEFINITION. The state of the core (10_state R20 to R32) as plain data, the environment beside it (00_scope R14,
10_state R36), the ways the model stops, and the state after reset (10_state R38). -/

namespace Sys2Proof.Machine

/-- Where the sequencer stands (10_state R27). -/
inductive Phase where
  | idle
  | tCheck
  | tSense
  | tXmit
  | tRemove
  | tListen
  | tEnd
  | tGap
  | halt
  deriving DecidableEq, Repr, Inhabited

/-- OUTCOME (10_state R28, 44_scheduler R201). -/
inductive TickOutcome where
  | none
  | transmittedThisTick
  | listenedThisTick
  deriving DecidableEq, Repr, Inhabited

/-- The causes of 60_exceptions R230. `coreBusy` names a refusal and is never stored in RES_CODE (R246). -/
inductive Cause where
  | ok
  | syncNotFound
  | malformedEncoding
  | crcMismatch
  | channelBusyContention
  | playbackFailure
  | captureFailure
  | outboxFailure
  | removeFailure
  | badOperand
  | illegalOp
  | coreBusy
  deriving DecidableEq, Repr, Inhabited

/-- What OutboxFirst() returns (00_scope R12, 20_memory R72). -/
inductive Listing where
  | none
  | some (h : Handle) (text : Text)
  | fail
  deriving DecidableEq, Repr, Inhabited

/-- A move that lands between two steps: the sequencer's own, the host's (10_state R33, R34), the outbox producer's
(20_memory R73) or the platform's (70_reset_and_hazards R260). -/
inductive Input where
  /-- Nothing comes from outside: the sequencer makes its own step. -/
  | core
  /-- The host writes a register; number 0 is CMD. -/
  | writeReg (number : Nat) (value : Word)
  /-- The host reads a register. -/
  | readReg (number : Nat)
  /-- HostLoad of TB. -/
  | loadTb (text : Text)
  /-- HostLoad of BB. -/
  | loadBb (bits : Bitstream)
  /-- HostLoad of SB. -/
  | loadSb (samples : List Sample)
  /-- HostRead of TB. -/
  | readTb
  /-- HostRead of BB. -/
  | readBb
  /-- HostRead of SB. -/
  | readSb
  /-- An entry of the outbox producer becomes visible to the next OutboxFirst. DESIGN CHOICE, log entry 24. -/
  | addEntry (entry : Entry)
  /-- The platform asserts reset. -/
  | reset
  deriving DecidableEq, Repr

/-- Something the core did at one of its interfaces: a call of an external primitive with its answer (00_scope R12), a
discarded command (60_exceptions R246), or what a host read returned (10_state R33). -/
inductive Event where
  | audioRecord (n : Nat) (answer : Reply)
  | audioPlay (samples : List Sample) (answer : Reply)
  | outboxFirst (answer : Listing)
  | outboxRemove (h : Handle) (answer : Reply)
  | wait (ms : Nat)
  | coreBusy
  | registerRead (number : Nat) (value : Word)
  | tbRead (text : Text)
  | bbRead (bits : Bitstream)
  | sbRead (samples : List Sample)
  deriving DecidableEq, Repr

/-- The environment of the core: the model's own fields, no state of the core (10_state R20, R36). Log entries 6, 9. -/
structure Env where
  /-- Pending moves of the host, the outbox producer and the platform, the next one first. -/
  inputs : List Input
  /-- Pending answers to AudioRecord, the next one first. -/
  records : List RecordReply
  /-- Pending answers to AudioPlay, the next one first. -/
  plays : List Reply
  /-- Pending choices of OutboxFirst, the next one first. -/
  firsts : List FirstReply
  /-- Pending answers to OutboxRemove, the next one first. -/
  removes : List Reply
  /-- The entries the outbox holds. -/
  outbox : List Entry
  /-- What the core has done at its interfaces, the newest first. -/
  calls : List Event
  /-- How many free values have been taken. -/
  draws : Nat
  deriving DecidableEq, Repr

/-- The state: everything 10_state R20 lists, and the environment. -/
structure State where
  /-- CFG and the capacities, fixed at construction (10_state R32). -/
  cfg : Cfg
  /-- TB (10_state R21). -/
  tb : Text
  /-- BB (10_state R22). -/
  bb : Bitstream
  /-- SB (10_state R23). -/
  sb : List Sample
  /-- RES_CODE (10_state R24). -/
  resCode : Cause
  /-- RES_VAL (10_state R24). -/
  resVal : Word
  /-- PHASE (10_state R27). -/
  phase : Phase
  /-- LOOP (10_state R27). -/
  loop : Bit
  /-- ENTRY.V (10_state R30). -/
  entryV : Bit
  /-- ENTRY.H (10_state R30). -/
  entryH : Handle
  /-- CHAN_V (10_state R28). -/
  chanV : Bit
  /-- CHAN (10_state R28). -/
  chan : ChanState
  /-- OUTCOME (10_state R28). -/
  outcome : TickOutcome
  /-- RMFAIL (10_state R29). -/
  rmfail : Bit
  /-- FAULT_PLAY (10_state R29). -/
  faultPlay : Bit
  /-- FAULT_CAPTURE (10_state R29). -/
  faultCapture : Bit
  /-- FAULT_OUTBOX (10_state R29). -/
  faultOutbox : Bit
  /-- FAULT_OPERAND (10_state R29). -/
  faultOperand : Bit
  /-- What surrounds the core. -/
  env : Env
  deriving DecidableEq, Repr

/-- Why the machine stops. -/
inductive Fault where
  /-- Raised by a step of the sequencer in HALT, where "no step is enabled; only reset leaves HALT" (44_scheduler R203):
  the machine is stuck until a reset comes. Safe: the hardware does nothing there either. -/
  | halted
  deriving DecidableEq, Repr

/-- What the model gives no meaning to. -/
inductive Refusal where
  /-- Raised by an arm of `exec` whose instruction has no meaning yet; no arm raises it. Safe. -/
  | notModelled (mnemonic : String)
  /-- Raised by every step of a core built with a configuration that is not valid: "a model must refuse (give no
  meaning to) a core built with an invalid configuration" (00_scope R10). Safe. -/
  | invalidConfiguration
  /-- Raised by a HostLoad or HostRead outside IDLE, or a HostLoad that does not fit its buffer: no move the host has
  (10_state R33). Safe: the spec gives the host no such move. -/
  | hostAccess
  deriving DecidableEq, Repr

/-- An environment in which nothing is pending, nothing has happened and the outbox is empty. DESIGN CHOICE, log
entries 6, 9, 17. -/
def Env.empty : Env where
  inputs := []
  records := []
  plays := []
  firsts := []
  removes := []
  outbox := []
  calls := []
  draws := 0

/-- The state after reset (10_state R38). ENTRY.H is unspecified there: handle 0 is a DESIGN CHOICE (log entry 7), and
nothing reads it while ENTRY.V = 0. The configuration is `Cfg.reference` (log entry 4). -/
def State.reset : State where
  cfg := Cfg.reference
  tb := []
  bb := []
  sb := []
  resCode := .ok
  resVal := 0#32
  phase := .idle
  loop := false
  entryV := false
  entryH := ⟨0⟩
  chanV := false
  chan := .free
  outcome := .none
  rmfail := false
  faultPlay := false
  faultCapture := false
  faultOutbox := false
  faultOperand := false
  env := Env.empty

end Sys2Proof.Machine
end

