-- ==== Sys2Proof/Machine/Operands.lean ====
section
/-! DEFINITION. How operations get their operands: the derived parameters N and samples(ms) (00_scope R7), slices of a
sequence (20_memory R63), the bins of a spectral window (40_tonecodec R123), capacities (00_scope R9, 10_state R25),
numbers shown in 32-bit registers (10_state R34), and which configurations are legal (00_scope R5, R9, R10). -/

namespace Sys2Proof.Machine

/-- N, the chunk length in samples, rounded down (00_scope R7). -/
def chunkLen (c : Cfg) : Nat := c.fs * c.tBitUs / 1000000

/-- samples(ms), the number of samples of a recording of `ms` milliseconds, rounded down (00_scope R7). -/
def samplesOf (c : Cfg) (ms : Nat) : Nat := c.fs * ms / 1000

/-- Consecutive slices of `n` elements from index 0; a trailing partial slice is dropped (20_memory R62, R63). -/
def chunks {α : Type} (n : Nat) (xs : List α) : List (List α) :=
  (List.range (xs.length / n)).map fun j => (xs.drop (j * n)).take n

/-- A sequence of `len` elements fits a buffer of this capacity (00_scope R9; `none` is unbounded). -/
def fits (cap : Option Nat) (len : Nat) : Bool :=
  match cap with
  | none => true
  | some k => decide (len ≤ k)

/-- A number in a 32-bit register, zero-extended (10_state R34). A number that 32 bits cannot hold shows a free value:
the spec states none (log entry 8). -/
def toWord (n : Nat) : Word := if n < 4294967296 then BitVec.ofNat 32 n else Config.freeWide n

/-- Bin `k` of a chunk of `len` samples lies within BAND_HW of the frequency `f`, bounds included: f - BAND_HW ≤
k * FS / len ≤ f + BAND_HW, both sides multiplied by `len` (40_tonecodec R123). -/
def inWindow (c : Cfg) (f len k : Nat) : Bool :=
  decide (f * len ≤ k * c.fs + c.bandHw * len) && decide (k * c.fs ≤ (f + c.bandHw) * len)

/-- K(f, len), the window of a frequency: its bins among 0 .. floor(len / 2), in rising order (40_tonecodec R123). -/
def window (c : Cfg) (f len : Nat) : List Nat := (List.range' 0 (len / 2 + 1)).filter (inWindow c f len)

/-- Both windows of a chunk of `len` samples hold at least one bin (00_scope R10(d), 40_tonecodec R125). -/
def windowsNonempty (c : Cfg) (len : Nat) : Bool :=
  !(window c c.fMark len).isEmpty && !(window c c.fSpace len).isEmpty

/-- A capacity is a positive number below 2^32, or unbounded (00_scope R9, 41_frame_primitives R149(c)). -/
def capacityLegal (cap : Option Nat) : Bool :=
  match cap with
  | none => true
  | some k => decide (0 < k) && decide (k < 4294967296)

/-- What arithmetic decides of the validity of a configuration: the ranges of 00_scope R5, the capacities of R9, and
R10 (a) to (e). R10 (f), ToneRoundTrip, joins it in `validCfg` (Machine/ToneCodec.lean). -/
def arithmeticValid (c : Cfg) : Bool :=
  [decide (1 ≤ c.fs), decide (1 ≤ c.tBitUs), decide (1 ≤ c.fMark), decide (1 ≤ c.fSpace),
    capacityLegal c.tbCap, capacityLegal c.bbCap, capacityLegal c.sbCap,
    decide (1 ≤ chunkLen c),
    decide (c.fMark ≠ c.fSpace),
    decide (2 * c.fMark < c.fs), decide (2 * c.fSpace < c.fs),
    windowsNonempty c (chunkLen c),
    decide (0 ≤ c.thresh.num)].all id

end Sys2Proof.Machine
end

