-- ==== Sys2Proof/Machine/Flags.lean ====
section
/-! DEFINITION. The flags: their codes, the STATUS register that gathers them (10_state R31), the clearing at the head
of a tick (10_state R28, R39, 44_scheduler R201), the sticky flags (10_state R29), and the channel classification
(43_channelsensor R180). -/

namespace Sys2Proof.Machine

/-- One bit as a number. -/
def bitNat (b : Bit) : Nat := if b then 1 else 0

/-- PHASE as STATUS[3:0] shows it (10_state R27). -/
def Phase.code : Phase → Nat
  | .idle => 0
  | .tCheck => 1
  | .tSense => 2
  | .tXmit => 3
  | .tRemove => 4
  | .tListen => 5
  | .tEnd => 6
  | .tGap => 7
  | .halt => 15

/-- OUTCOME as STATUS[9:8] shows it (10_state R28). -/
def TickOutcome.code : TickOutcome → Nat
  | .none => 0
  | .transmittedThisTick => 1
  | .listenedThisTick => 2

/-- The cause codes (60_exceptions R230). -/
def Cause.code : Cause → BitVec 8
  | .ok => 0#8
  | .syncNotFound => 1#8
  | .malformedEncoding => 2#8
  | .crcMismatch => 3#8
  | .channelBusyContention => 4#8
  | .playbackFailure => 5#8
  | .captureFailure => 6#8
  | .outboxFailure => 7#8
  | .removeFailure => 8#8
  | .badOperand => 9#8
  | .illegalOp => 10#8
  | .coreBusy => 11#8

/-- STATUS (10_state R31). -/
def statusWord (s : State) : Word :=
  BitVec.ofNat 32
    (s.phase.code + 16 * bitNat s.loop + 32 * bitNat s.entryV + 64 * bitNat s.chanV + 128 * bitNat s.chan.bit
      + 256 * s.outcome.code + 1024 * bitNat s.rmfail + 2048 * bitNat s.faultPlay + 4096 * bitNat s.faultCapture
      + 8192 * bitNat s.faultOutbox + 16384 * bitNat s.faultOperand)

/-- The four FAULT_* flags (10_state R29). -/
inductive FaultFlag where
  | play
  | capture
  | outbox
  | operand
  deriving DecidableEq, Repr

/-- Set one sticky fault flag (10_state R29). -/
def setFaultFlag (f : FaultFlag) (s : State) : State :=
  match f with
  | .play => { s with faultPlay := true }
  | .capture => { s with faultCapture := true }
  | .outbox => { s with faultOutbox := true }
  | .operand => { s with faultOperand := true }

/-- Some FAULT_* flag is set (10_state R29). -/
def anyFault (s : State) : Bool := s.faultPlay || s.faultCapture || s.faultOutbox || s.faultOperand

/-- What T_CHECK clears before it looks at the outbox (44_scheduler R201, 10_state R39): the per-tick flags, and the
result registers to OK and 0. ENTRY.H keeps its value, which has no meaning while ENTRY.V = 0 (10_state R30). -/
def clearTick (s : State) : State :=
  { s with entryV := false, chanV := false, chan := .free, outcome := .none, resCode := .ok, resVal := 0#32 }

/-- F_CLASSIFY (43_channelsensor R180): Busy when strictly more than NOISE_BITS bits were decoded. -/
def fClassify (c : Cfg) (bits : Bitstream) : ChanState := if bits.length > c.noiseBits then .busy else .free

/-- The two actions of the decision function (44_scheduler R191). -/
inductive TickAction where
  | listen
  | transmit
  deriving DecidableEq, Repr

/-- F_DECIDE (44_scheduler R191). -/
def fDecide (hasEntry : Bit) (chan : ChanState) : TickAction :=
  match hasEntry, chan with
  | true, .free => .transmit
  | true, .busy => .listen
  | false, _ => .listen

/-- ChannelState in RES_VAL: 0 Free, 1 Busy (10_state R24). -/
def chanWord : ChanState → Word
  | .free => 0#32
  | .busy => 1#32

/-- The action of DECIDE in RES_VAL: 0 Listen, 1 Transmit (10_state R24). -/
def actionWord : TickAction → Word
  | .listen => 0#32
  | .transmit => 1#32

/-- The decoded bit of DECBIT in RES_VAL: 0, 1, or 2 for Undetermined (10_state R24). -/
def symbolWord : Option Bit → Word
  | some false => 0#32
  | some true => 1#32
  | none => 2#32

end Sys2Proof.Machine
end

