-- ==== Sys2Proof/Machine/Ops.lean ====
section
/-! DEFINITION. The shared operations: writing buffers and result registers, accepting a command, refusing, taking a
device fault (60_exceptions R239), leaving it by reset (70_reset_and_hazards R260), and the external primitives
(20_memory R70 to R74). -/

namespace Sys2Proof.Machine

/-! ## Registers and buffers -/

/-- TB <- v. -/
def State.setTb (s : State) (v : Text) : State := { s with tb := v }

/-- BB <- v. -/
def State.setBb (s : State) (v : Bitstream) : State := { s with bb := v }

/-- SB <- v. -/
def State.setSb (s : State) (v : List Sample) : State := { s with sb := v }

/-- RES_CODE <- code ; RES_VAL <- v (10_state R24). -/
def State.setRes (s : State) (code : Cause) (v : Word) : State := { s with resCode := code, resVal := v }

/-- PHASE <- p (10_state R27). -/
def State.setPhase (s : State) (p : Phase) : State := { s with phase := p }

/-- ENTRY <- (1, h) (10_state R30). -/
def State.setEntry (s : State) (h : Handle) : State := { s with entryV := true, entryH := h }

/-- ENTRY.V <- 0 (10_state R30). -/
def State.clearEntry (s : State) : State := { s with entryV := false }

/-- Record what the core did at an interface. -/
def State.logCall (s : State) (e : Event) : State := { s with env := { s.env with calls := e :: s.env.calls } }

/-! ## Accepting and ending an operation -/

/-- A command met while PHASE is not IDLE: the write is discarded and nothing of the core changes, not even the result
registers (60_exceptions R246). Log entry 11. -/
def coreBusy (s : State) : State := s.logCall .coreBusy

/-- Every operation is accepted only while PHASE = IDLE (40_tonecodec R120, 60_exceptions R246, R248(a)). Every
meaning goes through this: an accepted operation always ends in a next state. -/
def whenIdle (s : State) (op : State → State) : Host.Outcome State Fault Refusal :=
  .next (if s.phase = .idle then op s else coreBusy s)

/-- A refusal: the cause, RES_VAL <- 0, and nothing else (60_exceptions R239, 10_state R25). -/
def refuse (cause : Cause) (s : State) : State := s.setRes cause 0#32

/-- An illegal command word (30_encoding R97, 60_exceptions R244); CoreBusy is examined first (R248(a)). -/
def rejectIllegal (s : State) : Host.Outcome State Fault Refusal := whenIdle s (refuse .illegalOp)

/-- Taking a device fault: the sticky flag, the cause, RES_VAL <- 0, PHASE <- HALT; buffers and ENTRY keep what they
hold, no state is saved, there is no handler (60_exceptions R239). -/
def raiseFault (flag : FaultFlag) (cause : Cause) (s : State) : State :=
  (setFaultFlag flag (s.setRes cause 0#32)).setPhase .halt

/-- The only way out of a fault: reset (60_exceptions R249). Every piece of state takes its reset value, the
configuration keeps its construction values, the outbox and the audio device are not touched (70_reset_and_hazards
R260, 10_state R38). -/
def platformReset (s : State) : State := { State.reset with cfg := s.cfg, env := s.env }

/-- How the body of an operation that calls a device ended. -/
inductive Body where
  /-- It did what its rule says. -/
  | done (s : State)
  /-- A result or a recording would not fit (10_state R25). -/
  | tooLarge (s : State)
  /-- The device answered `fail`. -/
  | deviceFailed (s : State)

/-- The end of a body inside a host command: a capacity refusal is BadOperand, a device failure a fault. -/
def endCommand (flag : FaultFlag) (cause : Cause) (b : Body) (done : State → State) : State :=
  match b with
  | .done t => done t
  | .tooLarge t => refuse .badOperand t
  | .deviceFailed t => raiseFault flag cause t

/-- The end of a body inside a tick: a capacity refusal is the fault FAULT_OPERAND (60_exceptions R243). -/
def endTickStep (flag : FaultFlag) (cause : Cause) (b : Body) (done : State → State) : State :=
  match b with
  | .done t => done t
  | .tooLarge t => raiseFault .operand .badOperand t
  | .deviceFailed t => raiseFault flag cause t

/-! ## The external primitives -/

/-- The device's answer to the next AudioRecord: a pending one, else a free value. -/
def nextRecord (s : State) : RecordReply × State :=
  match s.env.records with
  | r :: rest => (r, { s with env := { s.env with records := rest, draws := s.env.draws + 1 } })
  | [] => (Config.freeRecord s.env.draws, { s with env := { s.env with draws := s.env.draws + 1 } })

/-- The device's answer to the next AudioPlay: a pending one, else a free value. -/
def nextPlay (s : State) : Reply × State :=
  match s.env.plays with
  | r :: rest => (r, { s with env := { s.env with plays := rest, draws := s.env.draws + 1 } })
  | [] => (Config.freePlay s.env.draws, { s with env := { s.env with draws := s.env.draws + 1 } })

/-- The outbox's choice at the next OutboxFirst: a pending one, else a free value. -/
def nextFirst (s : State) : FirstReply × State :=
  match s.env.firsts with
  | r :: rest => (r, { s with env := { s.env with firsts := rest, draws := s.env.draws + 1 } })
  | [] => (Config.freeFirst s.env.draws, { s with env := { s.env with draws := s.env.draws + 1 } })

/-- The outbox's answer to the next OutboxRemove: a pending one, else a free value. -/
def nextRemove (s : State) : Reply × State :=
  match s.env.removes with
  | r :: rest => (r, { s with env := { s.env with removes := rest, draws := s.env.draws + 1 } })
  | [] => (Config.freeRemove s.env.draws, { s with env := { s.env with draws := s.env.draws + 1 } })

/-- Exactly `n` samples: those the answer gives, then free values (20_memory R70). `k` numbers the recording. -/
def recording (n k : Nat) (heard : List Sample) : List Sample :=
  heard.take n ++ (List.range (n - heard.length)).map (Config.freeSample k)

/-- AudioRecord(n) (20_memory R70): exactly `n` samples, or `none` for `fail`. AudioRecord(0) is ok([]) at once and
asks the device nothing. -/
def audioRecord (n : Nat) (s : State) : Option (List Sample) × State :=
  if n = 0 then (some [], s.logCall (.audioRecord 0 .ok))
  else
    match (nextRecord s).1 with
    | .ok heard => (some (recording n s.env.draws heard), (nextRecord s).2.logCall (.audioRecord n .ok))
    | .fail => (none, (nextRecord s).2.logCall (.audioRecord n .fail))

/-- AudioPlay(x) (20_memory R71). -/
def audioPlay (x : List Sample) (s : State) : Reply × State :=
  ((nextPlay s).1, (nextPlay s).2.logCall (.audioPlay x (nextPlay s).1))

/-- What a listing of these entries gives under a choice (20_memory R72, 93 U1): `none` when there is no entry, else
any one of those present. -/
def listingOf (outbox : List Entry) : FirstReply → Listing
  | .fail => .fail
  | .pick k =>
    match outbox[k % outbox.length]? with
    | some e => .some e.handle e.text
    | none => .none

/-- OutboxFirst() (20_memory R72): the outbox is not changed. -/
def outboxFirst (s : State) : Listing × State :=
  (listingOf s.env.outbox (nextFirst s).1,
    (nextFirst s).2.logCall (.outboxFirst (listingOf s.env.outbox (nextFirst s).1)))

/-- The outbox without the entry named `h`. -/
def withoutEntry (h : Handle) (outbox : List Entry) : List Entry := outbox.filter fun e => decide (e.handle ≠ h)

/-- Delete the entry named `h` from the outbox. -/
def State.deleteEntry (s : State) (h : Handle) : State :=
  { s with env := { s.env with outbox := withoutEntry h s.env.outbox } }

/-- OutboxRemove(h) (20_memory R73): `ok` deletes the entry, `fail` leaves it. -/
def outboxRemove (h : Handle) (s : State) : Reply × State :=
  match (nextRemove s).1 with
  | .ok => (.ok, ((nextRemove s).2.deleteEntry h).logCall (.outboxRemove h .ok))
  | .fail => (.fail, (nextRemove s).2.logCall (.outboxRemove h .fail))

/-- Wait(ms) (20_memory R74): reads and writes nothing of the core. -/
def wait (ms : Nat) (s : State) : State := s.logCall (.wait ms)

end Sys2Proof.Machine
end

