-- ==== Sys2Proof/Machine/ToneCodec.lean ====
section
/-! DEFINITION. ToneCodec (40_tonecodec): the pure functions F_ENCBIT, F_DECBIT, F_MOD, F_DEMOD (00_scope R13), the
validity of a configuration (00_scope R10) and the operations ENCBIT, DECBIT, MOD, DEMOD. The functions and operations
that make tones or read band magnitudes take the numerics record as an argument (00_scope R8), so that claims hold for
every numerics; the meanings take the machine's own. -/

namespace Sys2Proof.Machine

/-! ## The functions -/

/-- The tone of a bit: mark for 1, space for 0 (40_tonecodec R121). -/
def toneFreq (c : Cfg) (b : Bit) : Nat := if b then c.fMark else c.fSpace

/-- F_ENCBIT (40_tonecodec R121): the N samples NUM.tone(f, n) for n = 0 .. N-1, f the frequency of the bit. -/
def fEncbit (num : Numerics) (c : Cfg) (b : Bit) : List Sample :=
  (List.range (chunkLen c)).map (num.tone c (toneFreq c b))

/-- The decision of F_DECBIT on the two band magnitudes and the threshold (40_tonecodec R124): the tests in this order,
both strict; `none` is Undetermined. -/
def decideBit (m s t : Mag) : Option Bit :=
  if m > s ∧ m > t then some true else if s > t then some false else none

/-- F_DECBIT (40_tonecodec R124). -/
def fDecbit (num : Numerics) (c : Cfg) (x : List Sample) : Option Bit :=
  decideBit (num.bandmag c x c.fMark) (num.bandmag c x c.fSpace) c.thresh

/-- F_MOD (40_tonecodec R127): the tones of the bits one after another. -/
def fMod (num : Numerics) (c : Cfg) (bits : Bitstream) : List Sample := bits.flatMap (fEncbit num c)

/-- F_DEMOD (40_tonecodec R128): the decoded bits of the chunks in order, Undetermined ones dropped (R129). -/
def fDemod (num : Numerics) (c : Cfg) (x : List Sample) : Bitstream := (chunks (chunkLen c) x).filterMap (fDecbit num c)

/-! ## The machine's numerics and the valid configurations -/

/-- ToneRoundTrip (00_scope R10(f)): each tone decodes to its bit. -/
def toneRoundTrip (num : Numerics) (c : Cfg) : Bool :=
  decide (fDecbit num c (fEncbit num c true) = some true)
    && decide (fDecbit num c (fEncbit num c false) = some false)

/-- The tone of the reference semantics, AMP * sin (2 * pi * f * n / FS), exactly (40_tonecodec R121, R132). -/
def referenceTone (c : Cfg) (f n : Nat) : Sample := .sine toneAmp f n c.fs

/-- A numerics that has ToneRoundTrip under every configuration with N >= 1, F_MARK and F_SPACE distinct: it reads a
chunk's frequency off its first sample. It is there only to stand in `theNum` for a record that has not. -/
def labelledNum : Numerics where
  tone := referenceTone
  bandmag c x f :=
    match x with
    | .sine _ g _ _ :: _ => if g = f then c.thresh + 1 else c.thresh
    | _ => c.thresh

/-- NUM, the machine's numerics: any record that has ToneRoundTrip under the construction values, which is all that the
machine assumes of it (00_scope R8). `toneRoundTrip_theNum` (Laws/Codec.lean) says that it has. Log entry 3. -/
@[irreducible] def theNum : Numerics := if toneRoundTrip Config.anyNum Cfg.reference then Config.anyNum else labelledNum

/-- The configuration is valid (00_scope R10): (a) to (e) with R5 and R9, and (f), ToneRoundTrip of the machine's
numerics. Under `Cfg.reference` (f) is known of `theNum`, so the test of it is not made there and the kernel can
evaluate a step from reset; `validCfg_iff` (Laws/Codec.lean) says that this changes nothing. -/
def validCfg (c : Cfg) : Bool := arithmeticValid c && (decide (c = Cfg.reference) || toneRoundTrip theNum c)

/-! ## The operations -/

/-- ENCBIT (40_tonecodec R122). -/
def encbitOp (num : Numerics) (b : Bit) (s : State) : State :=
  if fits s.cfg.sbCap (chunkLen s.cfg) then (s.setSb (fEncbit num s.cfg b)).setRes .ok 0#32
  else refuse .badOperand s

/-- DECBIT (40_tonecodec R125): the whole of SB is the chunk. -/
def decbitOp (num : Numerics) (s : State) : State :=
  if s.sb.length ≠ 0 ∧ windowsNonempty s.cfg s.sb.length = true then
    s.setRes .ok (symbolWord (fDecbit num s.cfg s.sb))
  else refuse .badOperand s

/-- MOD (40_tonecodec R127). -/
def modOp (num : Numerics) (s : State) : State :=
  if fits s.cfg.sbCap (chunkLen s.cfg * s.bb.length) then (s.setSb (fMod num s.cfg s.bb)).setRes .ok 0#32
  else refuse .badOperand s

/-- DEMOD (40_tonecodec R130): the capacity is tested on the worst case, before decoding. -/
def demodOp (num : Numerics) (s : State) : State :=
  if fits s.cfg.bbCap (s.sb.length / chunkLen s.cfg) then (s.setBb (fDemod num s.cfg s.sb)).setRes .ok 0#32
  else refuse .badOperand s

/-- ENCBIT, OP 0x01. -/
def execEncbit (b : Bit) (s : State) : Host.Outcome State Fault Refusal := whenIdle s (encbitOp theNum b)

/-- DECBIT, OP 0x02. -/
def execDecbit (s : State) : Host.Outcome State Fault Refusal := whenIdle s (decbitOp theNum)

/-- MOD, OP 0x03. -/
def execMod (s : State) : Host.Outcome State Fault Refusal := whenIdle s (modOp theNum)

/-- DEMOD, OP 0x04. -/
def execDemod (s : State) : Host.Outcome State Fault Refusal := whenIdle s (demodOp theNum)

end Sys2Proof.Machine
end

