-- ==== Sys2Proof/Machine/ChannelSensor.lean ====
section
/-! DEFINITION. ChannelSensor (43_channelsensor): the operations CLASSIFY and SENSE. F_CLASSIFY stands in Flags.lean. -/

namespace Sys2Proof.Machine

/-- CLASSIFY (43_channelsensor R181): the per-tick flags are not written. -/
def classifyOp (s : State) : State := s.setRes .ok (chanWord (fClassify s.cfg s.bb))

/-- The body that SENSE, T_SENSE and RECV share (43_channelsensor R182, 45_standalone R220): test the capacities before
anything is recorded, record, keep the recording in SB and its bits in BB. -/
def captureBody (num : Numerics) (ms : Nat) (s : State) : Body :=
  let n := samplesOf s.cfg ms
  if fits s.cfg.sbCap n && fits s.cfg.bbCap (n / chunkLen s.cfg) then
    match audioRecord n s with
    | (some x, t) => .done ((t.setSb x).setBb (fDemod num s.cfg x))
    | (none, t) => .deviceFailed t
  else .tooLarge s

/-- SENSE (43_channelsensor R182): the channel state goes to RES_VAL, not to CHAN. -/
def senseOp (num : Numerics) (ms : Nat) (s : State) : State :=
  endCommand .capture .captureFailure (captureBody num ms s) classifyOp

/-- CLASSIFY, OP 0x20. -/
def execClassify (s : State) : Host.Outcome State Fault Refusal := whenIdle s classifyOp

/-- SENSE, OP 0x21. -/
def execSense (ms : Nat) (s : State) : Host.Outcome State Fault Refusal := whenIdle s (senseOp theNum ms)

end Sys2Proof.Machine
end

