-- ==== Sys2Proof/Machine/FramePrimitives.lean ====
section
/-! DEFINITION. The frame primitives (41_frame_primitives): F_UNPACK, F_PACK, F_RENC, F_RDEC, F_CRC8 and the operations
UNPACK, PACK, RENC, RDEC, CRC8. The reversible encoding is base64 (R144). -/

namespace Sys2Proof.Machine

/-! ## Bytes and bits -/

/-- The 8 bits of a byte, most significant first (20_memory R60). -/
def byteBits (v : Byte) : Bitstream :=
  [v.getLsbD 7, v.getLsbD 6, v.getLsbD 5, v.getLsbD 4, v.getLsbD 3, v.getLsbD 2, v.getLsbD 1, v.getLsbD 0]

/-- F_UNPACK (41_frame_primitives R140). -/
def fUnpack (bytes : Text) : Bitstream := bytes.flatMap byteBits

/-- The number whose binary digits these are, first digit most significant. -/
def bitsNat (bits : Bitstream) : Nat := bits.foldl (fun acc b => 2 * acc + bitNat b) 0

/-- The byte of 8 bits, most significant first (41_frame_primitives R141). -/
def byteOfBits (bits : Bitstream) : Byte := BitVec.ofNat 8 (bitsNat bits)

/-- F_PACK (41_frame_primitives R141): a trailing partial byte is dropped. -/
def fPack (bits : Bitstream) : Text := (chunks 8 bits).map byteOfBits

/-! ## The reversible encoding, base64 (41_frame_primitives R144) -/

/-- The pad character `=`. -/
def b64Pad : Byte := 0x3D#8

/-- The alphabet character of a 6-bit value. -/
def b64Char (v : Nat) : Byte :=
  if v < 26 then BitVec.ofNat 8 (0x41 + v)
  else if v < 52 then BitVec.ofNat 8 (0x61 + (v - 26))
  else if v < 62 then BitVec.ofNat 8 (0x30 + (v - 52))
  else if v = 62 then 0x2B#8 else 0x2F#8

/-- The 6-bit value of an alphabet character; `none` for every other byte, the pad character among them. -/
def b64Val (ch : Byte) : Option Nat :=
  let n := ch.toNat
  if 0x41 ≤ n ∧ n ≤ 0x5A then some (n - 0x41)
  else if 0x61 ≤ n ∧ n ≤ 0x7A then some (n - 0x61 + 26)
  else if 0x30 ≤ n ∧ n ≤ 0x39 then some (n - 0x30 + 52)
  else if n = 0x2B then some 62
  else if n = 0x2F then some 63
  else none

/-- F_RENC (41_frame_primitives R144): three bytes are four characters; one or two bytes left over are padded. -/
def fRenc : Text → Text
  | [] => []
  | [x] =>
    let g := x.toNat * 16
    [b64Char (g / 64), b64Char (g % 64), b64Pad, b64Pad]
  | [x, y] =>
    let g := (x.toNat * 256 + y.toNat) * 4
    [b64Char (g / 4096), b64Char (g / 64 % 64), b64Char (g % 64), b64Pad]
  | x :: y :: z :: rest =>
    let g := x.toNat * 65536 + y.toNat * 256 + z.toNat
    b64Char (g / 262144) :: b64Char (g / 4096 % 64) :: b64Char (g / 64 % 64) :: b64Char (g % 64) :: fRenc rest

/-- The byte of a number below 256. -/
def byteOf (n : Nat) : Byte := BitVec.ofNat 8 n

/-- F_RDEC (41_frame_primitives R143, R144): `none` is `invalid`. Padding stands in the last group only, the bits it
added must be zero, nothing is skipped and nothing is supplied. -/
def fRdec : Text → Option Text
  | [] => some []
  | a :: b :: c :: d :: rest =>
    match b64Val a, b64Val b with
    | some p, some q =>
      if c = b64Pad ∧ d = b64Pad ∧ rest = [] then
        if q % 16 = 0 then some [byteOf (p * 4 + q / 16)] else none
      else
        match b64Val c with
        | none => none
        | some r =>
          if d = b64Pad ∧ rest = [] then
            if r % 4 = 0 then some [byteOf (p * 4 + q / 16), byteOf (q % 16 * 16 + r / 4)] else none
          else
            match b64Val d with
            | none => none
            | some t =>
              (fRdec rest).map fun more =>
                byteOf (p * 4 + q / 16) :: byteOf (q % 16 * 16 + r / 4) :: byteOf (r % 4 * 64 + t) :: more
    | _, _ => none
  | _ => none

/-! ## CRC-8 -/

/-- One of the 8 iterations: the high bit is tested before the shift (41_frame_primitives R147). -/
def crcShift (acc : Byte) : Byte := if acc.getLsbD 7 then (acc <<< 1) ^^^ crcPoly else acc <<< 1

/-- One byte: XOR into the accumulator, then 8 iterations (41_frame_primitives R147). -/
def crcByte (acc b : Byte) : Byte :=
  crcShift (crcShift (crcShift (crcShift (crcShift (crcShift (crcShift (crcShift (acc ^^^ b))))))))

/-- F_CRC8 (41_frame_primitives R147). The accumulator exists only here (10_state R26). -/
def fCrc8 (bytes : Text) : Byte := bytes.foldl crcByte crcInit

/-! ## The operations -/

/-- UNPACK (41_frame_primitives R140). -/
def unpackOp (s : State) : State :=
  if fits s.cfg.bbCap (8 * s.tb.length) then (s.setBb (fUnpack s.tb)).setRes .ok 0#32 else refuse .badOperand s

/-- PACK (41_frame_primitives R141). -/
def packOp (s : State) : State :=
  if fits s.cfg.tbCap (s.bb.length / 8) then (s.setTb (fPack s.bb)).setRes .ok 0#32 else refuse .badOperand s

/-- RENC (41_frame_primitives R145). -/
def rencOp (s : State) : State :=
  if fits s.cfg.tbCap (fRenc s.tb).length then (s.setTb (fRenc s.tb)).setRes .ok 0#32 else refuse .badOperand s

/-- RDEC (41_frame_primitives R146): TB keeps its content when it is not a valid encoding. -/
def rdecOp (s : State) : State :=
  match fRdec s.tb with
  | none => s.setRes .malformedEncoding 0#32
  | some bytes => (s.setTb bytes).setRes .ok 0#32

/-- CRC8 (41_frame_primitives R148). -/
def crc8Op (s : State) : State := s.setRes .ok ((fCrc8 s.tb).setWidth 32)

/-- UNPACK, OP 0x10. -/
def execUnpack (s : State) : Host.Outcome State Fault Refusal := whenIdle s unpackOp

/-- PACK, OP 0x11. -/
def execPack (s : State) : Host.Outcome State Fault Refusal := whenIdle s packOp

/-- RENC, OP 0x12. -/
def execRenc (s : State) : Host.Outcome State Fault Refusal := whenIdle s rencOp

/-- RDEC, OP 0x13. -/
def execRdec (s : State) : Host.Outcome State Fault Refusal := whenIdle s rdecOp

/-- CRC8, OP 0x14. -/
def execCrc8 (s : State) : Host.Outcome State Fault Refusal := whenIdle s crc8Op

end Sys2Proof.Machine
end

