-- ==== Sys2Proof/Machine/FrameCodec.lean ====
section
/-! DEFINITION. FrameCodec (42_framecodec): F_BUILD, F_FSYNC, F_PARSE and the operations FSYNC, BUILD, PARSE. The frame
has no length field, no end marker and no escaping (30_encoding R92). -/

namespace Sys2Proof.Machine

/-- E, the payload bytes of a frame: the reversible encoding of the text followed by its IntegrityByte, which is the
CRC of the text's own encoding (30_encoding R91, 42_framecodec R162 steps 1 to 3). -/
def payloadBytes (text : Text) : Text := fRenc (text ++ [fCrc8 (fRenc text)])

/-- F_BUILD (42_framecodec R162). -/
def fBuild (text : Text) : Bitstream := syncword ++ fUnpack (payloadBytes text)

/-- F_FSYNC (42_framecodec R164): the least index at which the 16 bits of SYNCWORD stand. -/
def fFsync : Bitstream → Option Nat
  | [] => none
  | b :: bs => if syncword.isPrefixOf (b :: bs) then some 0 else (fFsync bs).map (· + 1)

/-- The four results of F_PARSE (42_framecodec R166). -/
inductive Parsed where
  | ok (payload : Text)
  | syncNotFound
  | malformedEncoding
  | crcMismatch (payload : Text)
  deriving DecidableEq, Repr

/-- Steps 4 to 6 of F_PARSE on the decoded bytes (42_framecodec R166). -/
def checkDecoded (d : Text) : Parsed :=
  match d.getLast? with
  | none => .malformedEncoding
  | some c =>
    if d.dropLast.any fun b => decide (0x80 ≤ b.toNat) then .malformedEncoding
    else if fCrc8 (fRenc d.dropLast) ≠ c then .crcMismatch d.dropLast
    else .ok d.dropLast

/-- F_PARSE (42_framecodec R166), the tests in the order of the source's steps. -/
def fParse (bits : Bitstream) : Parsed :=
  match fFsync bits with
  | none => .syncNotFound
  | some i =>
    match fRdec (fPack (bits.drop (i + 16))) with
    | none => .malformedEncoding
    | some d => checkDecoded d

/-- FSYNC (42_framecodec R165). -/
def fsyncOp (s : State) : State :=
  match fFsync s.bb with
  | none => s.setRes .syncNotFound 0#32
  | some i => s.setRes .ok (toWord i)

/-- BUILD (42_framecodec R163). -/
def buildOp (s : State) : State :=
  if fits s.cfg.bbCap (fBuild s.tb).length then (s.setBb (fBuild s.tb)).setRes .ok 0#32 else refuse .badOperand s

/-- A payload delivered in TB with its cause, or BadOperand where it does not fit (42_framecodec R167). -/
def deliver (cause : Cause) (payload : Text) (s : State) : State :=
  if fits s.cfg.tbCap payload.length then (s.setTb payload).setRes cause 0#32 else refuse .badOperand s

/-- PARSE (42_framecodec R167). -/
def parseOp (s : State) : State :=
  match fParse s.bb with
  | .ok p => deliver .ok p s
  | .crcMismatch p => deliver .crcMismatch p s
  | .syncNotFound => (s.setTb []).setRes .syncNotFound 0#32
  | .malformedEncoding => (s.setTb []).setRes .malformedEncoding 0#32

/-- FSYNC, OP 0x18. -/
def execFsync (s : State) : Host.Outcome State Fault Refusal := whenIdle s fsyncOp

/-- BUILD, OP 0x19. -/
def execBuild (s : State) : Host.Outcome State Fault Refusal := whenIdle s buildOp

/-- PARSE, OP 0x1A. -/
def execParse (s : State) : Host.Outcome State Fault Refusal := whenIdle s parseOp

end Sys2Proof.Machine
end

