-- ==== Sys2Proof/Machine/Scheduler.lean ====
section
/-! DEFINITION. MediaAccessScheduler (44_scheduler): the operations DECIDE, CHKOUT, XMIT, REMOVE, LISTEN, TICK, RUN and
the steps of a tick (R203). F_DECIDE stands in Flags.lean. -/

namespace Sys2Proof.Machine

/-! ## The four actions -/

/-- DECIDE (44_scheduler R192). -/
def decideOp (hasEntry : Bit) (chan : ChanState) (s : State) : State :=
  s.setRes .ok (actionWord (fDecide hasEntry chan))

/-- The body of CHKOUT and of T_CHECK (44_scheduler R195, R203). -/
def checkBody (s : State) : Body :=
  match outboxFirst s with
  | (.fail, t) => .deviceFailed t
  | (.none, t) => .done t.clearEntry
  | (.some h text, t) =>
    if fits s.cfg.tbCap text.length then .done ((t.setEntry h).setTb text) else .tooLarge t

/-- CHKOUT (44_scheduler R195): RES_VAL is 1 when an entry was found. -/
def chkoutOp (s : State) : State :=
  endCommand .outbox .outboxFailure (checkBody s) fun t => t.setRes .ok (if t.entryV then 1#32 else 0#32)

/-- The body of XMIT and of T_XMIT (44_scheduler R196): BB and SB are written before the frame is played. -/
def xmitBody (num : Numerics) (s : State) : Body :=
  let f := fBuild s.tb
  if fits s.cfg.bbCap f.length && fits s.cfg.sbCap (chunkLen s.cfg * f.length) then
    match audioPlay (fMod num s.cfg f) ((s.setBb f).setSb (fMod num s.cfg f)) with
    | (.ok, t) => .done t
    | (.fail, t) => .deviceFailed t
  else .tooLarge s

/-- XMIT (44_scheduler R196): the channel is not sensed, the outbox and ENTRY are not touched. -/
def xmitOp (num : Numerics) (s : State) : State :=
  endCommand .play .playbackFailure (xmitBody num s) fun t => t.setRes .ok 0#32

/-- OutboxRemove(ENTRY.H), then ENTRY.V <- 0, and RMFAIL <- 1 on failure: what REMOVE and T_REMOVE share (44_scheduler
R197, R203). The answer is returned beside the state. -/
def removeEntry (s : State) : Reply × State :=
  match outboxRemove s.entryH s with
  | (.ok, t) => (.ok, t.clearEntry)
  | (.fail, t) => (.fail, { t.clearEntry with rmfail := true })

/-- REMOVE (44_scheduler R197). -/
def removeOp (s : State) : State :=
  if s.entryV then
    match removeEntry s with
    | (.ok, t) => t.setRes .ok 0#32
    | (.fail, t) => t.setRes .removeFailure 0#32
  else refuse .badOperand s

/-- The body of LISTEN and of T_LISTEN (44_scheduler R198): the samples are discarded, no buffer is written, no
capacity is needed. -/
def listenBody (ms : Nat) (s : State) : Body :=
  match audioRecord (samplesOf s.cfg ms) s with
  | (some _, t) => .done t
  | (none, t) => .deviceFailed t

/-- LISTEN (44_scheduler R198). -/
def listenOp (ms : Nat) (s : State) : State :=
  endCommand .capture .captureFailure (listenBody ms s) fun t => t.setRes .ok 0#32

/-! ## The tick -/

/-- LOOP <- l ; PHASE <- T_CHECK (44_scheduler R199, R200). -/
def startTick (l : Bit) (s : State) : State := { s with loop := l, phase := .tCheck }

/-- TICK (44_scheduler R199): LOOP <- 0 ; PHASE <- T_CHECK. -/
def tickOp (s : State) : State := startTick false s

/-- RUN (44_scheduler R200): LOOP <- 1 ; PHASE <- T_CHECK. -/
def runOp (s : State) : State := startTick true s

/-- T_CHECK (44_scheduler R203). -/
def tCheck (s : State) : State :=
  endTickStep .outbox .outboxFailure (checkBody (clearTick s)) fun t =>
    t.setPhase (if t.entryV then .tSense else .tListen)

/-- CHAN_V and CHAN after a sense; `ChannelBusyContention` and T_LISTEN when Busy, T_XMIT when Free (44_scheduler
R203). -/
def senseDone (t : State) : State :=
  match fClassify t.cfg t.bb with
  | .busy => { t with chanV := true, chan := .busy, resCode := .channelBusyContention, phase := .tListen }
  | .free => { t with chanV := true, chan := .free, phase := .tXmit }

/-- T_SENSE (44_scheduler R203). -/
def tSense (num : Numerics) (s : State) : State :=
  endTickStep .capture .captureFailure (captureBody num s.cfg.tSenseMs s) senseDone

/-- T_XMIT (44_scheduler R203). -/
def tXmit (num : Numerics) (s : State) : State :=
  endTickStep .play .playbackFailure (xmitBody num s) fun t => t.setPhase .tRemove

/-- T_REMOVE (44_scheduler R203): the tick ends TransmittedThisTick whether or not the deletion worked. -/
def tRemove (s : State) : State :=
  match removeEntry s with
  | (.ok, t) => { t with outcome := .transmittedThisTick, phase := .tEnd }
  | (.fail, t) => { t with resCode := .removeFailure, outcome := .transmittedThisTick, phase := .tEnd }

/-- T_LISTEN (44_scheduler R203). -/
def tListen (s : State) : State :=
  endTickStep .capture .captureFailure (listenBody s.cfg.tListenMs s) fun t =>
    { t with outcome := .listenedThisTick, phase := .tEnd }

/-- T_END (44_scheduler R203). -/
def tEnd (s : State) : State :=
  { s with resVal := BitVec.ofNat 32 s.outcome.code, phase := if s.loop then .tGap else .idle }

/-- T_GAP (44_scheduler R202, R203). -/
def tGap (s : State) : State := (wait s.cfg.tTickMs s).setPhase .tCheck

/-- The step of the sequencer that PHASE enables (44_scheduler R203). In IDLE it waits for a command (10_state R27);
in HALT no step is enabled, which `coreStep` says. -/
def sequencerStep (num : Numerics) (s : State) : State :=
  match s.phase with
  | .idle => s
  | .tCheck => tCheck s
  | .tSense => tSense num s
  | .tXmit => tXmit num s
  | .tRemove => tRemove s
  | .tListen => tListen s
  | .tEnd => tEnd s
  | .tGap => tGap s
  | .halt => s

/-- `k` steps of the sequencer with nothing from outside in between. -/
def sequencerRun (num : Numerics) : Nat → State → State
  | 0, s => s
  | k + 1, s => sequencerRun num k (sequencerStep num s)

/-- The core's own move (44_scheduler R203): stuck in HALT, otherwise the step of the phase. -/
def coreStep (s : State) : Host.Outcome State Fault Refusal :=
  match s.phase with
  | .halt => .fault .halted
  | .idle | .tCheck | .tSense | .tXmit | .tRemove | .tListen | .tEnd | .tGap => .next (sequencerStep theNum s)

/-! ## The meanings -/

/-- DECIDE, OP 0x30. -/
def execDecide (hasEntry : Bit) (chan : ChanState) (s : State) : Host.Outcome State Fault Refusal :=
  whenIdle s (decideOp hasEntry chan)

/-- CHKOUT, OP 0x31. -/
def execChkout (s : State) : Host.Outcome State Fault Refusal := whenIdle s chkoutOp

/-- XMIT, OP 0x32. -/
def execXmit (s : State) : Host.Outcome State Fault Refusal := whenIdle s (xmitOp theNum)

/-- REMOVE, OP 0x33. -/
def execRemove (s : State) : Host.Outcome State Fault Refusal := whenIdle s removeOp

/-- LISTEN, OP 0x34. -/
def execListen (ms : Nat) (s : State) : Host.Outcome State Fault Refusal := whenIdle s (listenOp ms)

/-- TICK, OP 0x35. -/
def execTick (s : State) : Host.Outcome State Fault Refusal := whenIdle s tickOp

/-- RUN, OP 0x36. -/
def execRun (s : State) : Host.Outcome State Fault Refusal := whenIdle s runOp

end Sys2Proof.Machine
end

