-- ==== Sys2Proof/Machine/Standalone.lean ====
section
/-! DEFINITION. The standalone receive RECV (45_standalone R220). -/

namespace Sys2Proof.Machine

/-- What PARSE writes to TB (42_framecodec R167). -/
def Parsed.payload : Parsed → Text
  | .ok p => p
  | .crcMismatch p => p
  | .syncNotFound => []
  | .malformedEncoding => []

/-- The body of RECV (45_standalone R220) before its results are written: the recording of SENSE, and then the length of
the payload, which is the last result and is tested before a buffer is written (10_state R25). The recording was made by
then: log entry 13. -/
def recvBody (num : Numerics) (ms : Nat) (s : State) : Body :=
  match captureBody num ms s with
  | .done t =>
    if fits s.cfg.tbCap (fParse t.bb).payload.length then .done t else .tooLarge { s with env := t.env }
  | .tooLarge t => .tooLarge t
  | .deviceFailed t => .deviceFailed t

/-- RECV (45_standalone R220): one recording, demodulated from sample 0, then exactly PARSE on its bits. -/
def recvOp (num : Numerics) (ms : Nat) (s : State) : State :=
  endCommand .capture .captureFailure (recvBody num ms s) parseOp

/-- RECV, OP 0x40. -/
def execRecv (ms : Nat) (s : State) : Host.Outcome State Fault Refusal := whenIdle s (recvOp theNum ms)

end Sys2Proof.Machine
end

