-- ==== Sys2Proof/Machine/HostPort.lean ====
section
/-! DEFINITION. The host's side of the core (10_state R33, R34): reading and writing registers by number, HostLoad and
HostRead, the moves of the outside between steps, the pseudo-operations of 30_encoding R101 and the marker strings of
60_exceptions R238. -/

namespace Sys2Proof.Machine

/-- The register map of 10_state R34, but for number 7 while ENTRY.V = 0 (`entryHWord`). Numbers not listed, and CMD,
read as 0. -/
def registerWord (s : State) (number : Nat) : Word :=
  match number with
  | 1 => statusWord s
  | 2 => s.resCode.code.setWidth 32
  | 3 => s.resVal
  | 4 => toWord s.tb.length
  | 5 => toWord s.bb.length
  | 6 => toWord s.sb.length
  | 7 => if s.entryV then Config.handleWord s.entryH else Config.freeEntryH s.env.draws
  | 16 => toWord s.cfg.fs
  | 17 => toWord s.cfg.tBitUs
  | 18 => toWord s.cfg.fMark
  | 19 => toWord s.cfg.fSpace
  | 20 => toWord s.cfg.bandHw
  | 21 => Config.magWord s.cfg.thresh
  | 22 => toWord s.cfg.noiseBits
  | 23 => toWord s.cfg.tTickMs
  | 24 => toWord s.cfg.tSenseMs
  | 25 => toWord s.cfg.tListenMs
  | 26 => toWord (chunkLen s.cfg)
  | 27 => 0x0000AAAA#32
  | 28 => 0x00000007#32
  | _ => 0#32

/-- A free value has been taken. -/
def State.countDraw (s : State) : State := { s with env := { s.env with draws := s.env.draws + 1 } }

/-- The host reads a register: no side effect on the core (10_state R31, 20_memory R66). -/
def hostReadReg (number : Nat) (s : State) : State :=
  (s.logCall (.registerRead number (registerWord s number))).countDraw

/-- HostLoad of a sequence of `len` elements: only in IDLE and only if it fits (10_state R33). -/
def hostLoad (s t : State) (cap : Option Nat) (len : Nat) : Host.Outcome State Fault Refusal :=
  if s.phase = .idle ∧ fits cap len = true then .next t else .refused .hostAccess

/-- HostRead: only in IDLE (10_state R33). -/
def hostRead (s : State) (e : Event) : Host.Outcome State Fault Refusal :=
  if s.phase = .idle then .next (s.logCall e) else .refused .hostAccess

/-- An entry that the outbox producer added becomes visible (20_memory R73, R76). DESIGN CHOICE, log entry 24: R76
leaves open how soon that is, and the very next OutboxFirst may return the entry; a later place in the pending inputs
is a later time. -/
def addEntry (e : Entry) (s : State) : State := { s with env := { s.env with outbox := s.env.outbox ++ [e] } }

/-- The pending moves after the first. -/
def State.popInput (s : State) : State := { s with env := { s.env with inputs := s.env.inputs.tail } }

/-- What a step does next: run a command word on a state, or this outcome. -/
inductive Move where
  | command (w : Word) (s : State)
  | other (o : Host.Outcome State Fault Refusal)

/-- The move a pending input makes on the state from which it has been taken (10_state R33, R34, 70 R260). -/
def inputMove (i : Input) (s : State) : Move :=
  match i with
  | .core => .other (coreStep s)
  | .writeReg n w => if n = 0 then .command w s else .other (.next s)
  | .readReg n => .other (.next (hostReadReg n s))
  | .loadTb v => .other (hostLoad s (s.setTb v) s.cfg.tbCap v.length)
  | .loadBb v => .other (hostLoad s (s.setBb v) s.cfg.bbCap v.length)
  | .loadSb v => .other (hostLoad s (s.setSb v) s.cfg.sbCap v.length)
  | .readTb => .other (hostRead s (.tbRead s.tb))
  | .readBb => .other (hostRead s (.bbRead s.bb))
  | .readSb => .other (hostRead s (.sbRead s.sb))
  | .addEntry e => .other (.next (addEntry e s))
  | .reset => .other (.next (platformReset s))

/-- The next move: the first pending input, or the core's own step when none is pending. -/
def nextMove (s : State) : Move :=
  match s.env.inputs with
  | [] => .other (coreStep s)
  | i :: _ => inputMove i s.popInput

/-! ## What a host does with the core -/

/-- SEND text (30_encoding R101, 45_standalone R221): HLOAD TB, text; XMIT. -/
def sendInputs (text : Text) : List Input := [.loadTb text, .writeReg 0 (encode .xmit)]

/-- RECEIVE ms (30_encoding R101): RECV ms; HREAD TB. The host's mapping of RES_CODE to a string is `hostMarker`. -/
def receiveInputs (ms : Nat) : List Input := [.writeReg 0 (encode (.recv ms)), .readTb]

/-- The marker string a host prints after RECV (60_exceptions R238, 30_encoding R102); `none` where the rule names
none: with OK the host prints the text itself. -/
def hostMarker (cause : Cause) : Option String :=
  match cause with
  | .crcMismatch => some "[CRC ERROR]"
  | .malformedEncoding => some "[Decode Error]"
  | .syncNotFound => some Config.markerSyncNotFound
  | .ok | .channelBusyContention | .playbackFailure | .captureFailure | .outboxFailure | .removeFailure | .badOperand
  | .illegalOp | .coreBusy => none

end Sys2Proof.Machine
end

