-- ==== Sys2Proof/Machine/Dispatch.lean ====
section
/-! DEFINITION. One arm per operation of 30_encoding R96, each a direct call of its meaning. -/

namespace Sys2Proof.Machine

def exec (i : Instr) (s : State) : Host.Outcome State Fault Refusal :=
  match i with
  | .encbit b => Sys2Proof.Machine.execEncbit b s
  | .decbit => Sys2Proof.Machine.execDecbit s
  | .mod => Sys2Proof.Machine.execMod s
  | .demod => Sys2Proof.Machine.execDemod s
  | .unpack => Sys2Proof.Machine.execUnpack s
  | .pack => Sys2Proof.Machine.execPack s
  | .renc => Sys2Proof.Machine.execRenc s
  | .rdec => Sys2Proof.Machine.execRdec s
  | .crc8 => Sys2Proof.Machine.execCrc8 s
  | .fsync => Sys2Proof.Machine.execFsync s
  | .build => Sys2Proof.Machine.execBuild s
  | .parse => Sys2Proof.Machine.execParse s
  | .classify => Sys2Proof.Machine.execClassify s
  | .sense ms => Sys2Proof.Machine.execSense ms s
  | .decideAct hasEntry chan => Sys2Proof.Machine.execDecide hasEntry chan s
  | .chkout => Sys2Proof.Machine.execChkout s
  | .xmit => Sys2Proof.Machine.execXmit s
  | .remove => Sys2Proof.Machine.execRemove s
  | .listen ms => Sys2Proof.Machine.execListen ms s
  | .tick => Sys2Proof.Machine.execTick s
  | .run => Sys2Proof.Machine.execRun s
  | .recv ms => Sys2Proof.Machine.execRecv ms s

end Sys2Proof.Machine
end

