-- ==== Sys2Proof/Machine/Step.lean ====
section
/-! DEFINITION. One step of the machine: the next move from outside or of the sequencer, and how the host places a
command word for it. -/

namespace Sys2Proof.Machine

/-- One step. A core built with a configuration that is not valid is given no meaning (00_scope R10). A command write
is decoded and run; an illegal word is refused by the core itself (30_encoding R97). -/
def step (s : State) : Host.Outcome State Fault Refusal :=
  if validCfg s.cfg then
    match nextMove s with
    | .command w t =>
      match decode w with
      | .ok i => exec i t
      | .error _ => rejectIllegal t
    | .other o => o
  else .refused .invalidConfiguration

/-- `s` with the host about to write this command word, and the core in IDLE, where it accepts one (10_state R33; log
entry 9). -/
def State.withFetchWord (s : State) (nbits w : Nat) : State :=
  { s with
    phase := .idle
    env := { s.env with inputs := .writeReg 0 (BitVec.ofNat 32 (w % 2 ^ nbits)) :: s.env.inputs } }

end Sys2Proof.Machine
end

