-- ==== Sys2Proof/Machine/Reference.lean ====
section
/-! DEFINITION. The reference semantics of the tone codec over the real numbers (00_scope R8, 40_tonecodec R121 to R128,
R132): the exact tones, the discrete Fourier transform, band magnitudes, and the exact decoder. No step evaluates it:
the machine runs on a numerics record, and `ExactNum` says when a record is the reference semantics in every sample and
every comparison. Log entries 2, 3. -/

namespace Sys2Proof.Machine

/-! ## Over the reals -/

/-- The tone of a frequency, AMP * sin (2 * pi * f * n / FS) (40_tonecodec R121). -/
noncomputable def exactTone (c : Cfg) (f n : ℕ) : ℝ := (toneAmp : ℝ) * Real.sin (2 * Real.pi * f * n / c.fs)

/-- F_ENCBIT over the reals (40_tonecodec R121). -/
noncomputable def exactEncbit (c : Cfg) (b : Bit) : List ℝ := (List.range (chunkLen c)).map (exactTone c (toneFreq c b))

/-- X[k], the discrete Fourier transform of a chunk, not normalised (40_tonecodec R123). -/
noncomputable def chunkSpectrum (x : List ℝ) (k : ℕ) : ℂ :=
  ∑ n ∈ Finset.range x.length, (x.getD n 0 : ℂ) * Complex.exp (-(2 * Real.pi * k * n / x.length) * Complex.I)

/-- mag[k] = |X[k]| (40_tonecodec R123). -/
noncomputable def magnitude (x : List ℝ) (k : ℕ) : ℝ := ‖chunkSpectrum x k‖

/-- bandmag(x, f): the mean of mag[k] over the bins of the window of `f` (40_tonecodec R123). -/
noncomputable def bandMagnitude (c : Cfg) (x : List ℝ) (f : ℕ) : ℝ :=
  ((window c f x.length).map (magnitude x)).sum / ((window c f x.length).length : ℝ)

/-- F_DECBIT over the reals (40_tonecodec R124). -/
noncomputable def exactDecbit (c : Cfg) (x : List ℝ) : Option Bit :=
  let m := bandMagnitude c x c.fMark
  let s := bandMagnitude c x c.fSpace
  if m > s ∧ m > (c.thresh : ℝ) then some true else if s > (c.thresh : ℝ) then some false else none

/-- F_MOD over the reals (40_tonecodec R127). -/
noncomputable def exactMod (c : Cfg) (bits : Bitstream) : List ℝ := bits.flatMap (exactEncbit c)

/-- F_DEMOD over the reals (40_tonecodec R128). -/
noncomputable def exactDemod (c : Cfg) (x : List ℝ) : Bitstream := (chunks (chunkLen c) x).filterMap (exactDecbit c)

/-- ToneRoundTrip over the reals (00_scope R10(f)). -/
def ExactToneRoundTrip (c : Cfg) : Prop :=
  exactDecbit c (exactEncbit c true) = some true ∧ exactDecbit c (exactEncbit c false) = some false

/-! ## A numerics record beside the reals -/

/-- The real number a Sample stands for. -/
noncomputable def sampleValue : Sample → ℝ
  | .rat q => (q : ℝ)
  | .sine amp f n fs => (amp : ℝ) * Real.sin (2 * Real.pi * f * n / fs)
  | .add x y => sampleValue x + sampleValue y

/-- The three comparisons that F_DECBIT makes of this chunk come out as over the reals. -/
def ReadsExactly (num : Numerics) (c : Cfg) (x : List Sample) : Prop :=
  let m := bandMagnitude c (x.map sampleValue) c.fMark
  let s := bandMagnitude c (x.map sampleValue) c.fSpace
  (num.bandmag c x c.fMark > num.bandmag c x c.fSpace ↔ m > s)
  ∧ (num.bandmag c x c.fMark > c.thresh ↔ m > (c.thresh : ℝ))
  ∧ (num.bandmag c x c.fSpace > c.thresh ↔ s > (c.thresh : ℝ))

/-- A numerics is exact: its tones stand for the exact tones and its comparisons of every chunk are the exact ones
(00_scope R8, 40_tonecodec R132). -/
structure ExactNum (num : Numerics) : Prop where
  tone_exact : ∀ (c : Cfg) (f n : ℕ), sampleValue (num.tone c f n) = exactTone c f n
  reads_exactly : ∀ (c : Cfg) (x : List Sample), ReadsExactly num c x

/-- ToneRoundTrip, 00_scope R10(f), of a numerics record. -/
def ToneRoundTrip (num : Numerics) (c : Cfg) : Prop :=
  fDecbit num c (fEncbit num c true) = some true ∧ fDecbit num c (fEncbit num c false) = some false

/-- The premises of 40_tonecodec R126: both tones on a bin (`k1`, `k0`), neither window holding the other tone's bin,
and the threshold below N / (4 * max |K|). -/
structure OnBinTones (c : Cfg) (k1 k0 : Nat) : Prop where
  sampled : 0 < c.fs
  mark_on_bin : c.fMark * chunkLen c = k1 * c.fs
  space_on_bin : c.fSpace * chunkLen c = k0 * c.fs
  distinct : k0 ≠ k1
  mark_low : 0 < k1 ∧ 2 * k1 < chunkLen c
  space_low : 0 < k0 ∧ 2 * k0 < chunkLen c
  apart : c.bandHw < c.fMark - c.fSpace ∨ c.bandHw < c.fSpace - c.fMark
  threshold_mark : c.thresh * (4 * (window c c.fMark (chunkLen c)).length : ℕ) < (chunkLen c : ℕ)
  threshold_space : c.thresh * (4 * (window c c.fSpace (chunkLen c)).length : ℕ) < (chunkLen c : ℕ)

end Sys2Proof.Machine
end

