-- ==== Sys2Proof/Safety.lean ====
section
/-! DEFINITION. The terms in which claims speak of runs: no fault, buffers within their capacities, the state invariant
of the sequencer, and what two states have in common. -/

namespace Sys2Proof.Machine

/-- The three buffers are within their capacities (10_state R21 to R23, R25). -/
def WithinCapacity (s : State) : Prop :=
  fits s.cfg.tbCap s.tb.length = true ∧ fits s.cfg.bbCap s.bb.length = true ∧ fits s.cfg.sbCap s.sb.length = true

/-- What holds of the per-tick registers in each phase of a tick (44_scheduler R201, R203, R205): past T_CHECK an
entry is held exactly where one was found and not yet removed, the frame is sent only on a Free reading of the same
tick, and a tick that reaches its end has one of the two outcomes. -/
def PhaseConsistent (s : State) : Prop :=
  match s.phase with
  | .idle | .tCheck | .halt => True
  | .tSense => s.entryV = true ∧ s.chanV = false ∧ s.outcome = .none
  | .tXmit => s.entryV = true ∧ s.chanV = true ∧ s.chan = .free ∧ s.outcome = .none
  | .tRemove => s.entryV = true ∧ s.chanV = true ∧ s.chan = .free ∧ s.outcome = .none
  | .tListen => s.outcome = .none ∧ (s.entryV = true → s.chanV = true ∧ s.chan = .busy)
      ∧ (s.entryV = false → s.chanV = false)
  | .tEnd => (s.outcome = .transmittedThisTick ∧ s.entryV = false ∧ s.chanV = true ∧ s.chan = .free)
      ∨ (s.outcome = .listenedThisTick ∧ (s.entryV = true → s.chanV = true ∧ s.chan = .busy)
        ∧ (s.entryV = false → s.chanV = false))
  | .tGap => s.outcome ≠ .none ∧ s.loop = true

/-- What holds of the result registers in each phase (44_scheduler R199, R203, 60_exceptions R230, R239): during a tick
RES_VAL is 0 and RES_CODE is what the steps so far have raised, in HALT both are a fault's, and RES_VAL is 0 with every
cause other than OK but where T_END has written the outcome of a tick beside the cause that the tick raised (log entry
16). -/
def ResultConsistent (s : State) : Prop :=
  match s.phase with
  | .idle | .tCheck | .tGap => s.resCode = .ok ∨ s.resVal = 0#32
      ∨ (s.resCode = .channelBusyContention ∧ s.outcome = .listenedThisTick ∧ s.resVal = 2#32)
      ∨ (s.resCode = .removeFailure ∧ s.outcome = .transmittedThisTick ∧ s.resVal = 1#32)
  | .tSense | .tXmit | .tRemove => s.resCode = .ok ∧ s.resVal = 0#32
  | .tListen => s.resCode = (if s.entryV then .channelBusyContention else .ok) ∧ s.resVal = 0#32
  | .tEnd => s.resVal = 0#32
      ∧ (s.outcome = .transmittedThisTick → s.resCode = .ok ∨ s.resCode = .removeFailure)
      ∧ (s.outcome = .listenedThisTick → s.resCode = if s.entryV then .channelBusyContention else .ok)
  | .halt => s.resVal = 0#32 ∧ s.resCode ∈ [.playbackFailure, .captureFailure, .outboxFailure, .badOperand]

/-- The invariant of the core: buffers within capacity; in HALT exactly when a fault flag is set (10_state R29);
`CoreBusy` never stored in RES_CODE (60_exceptions R246); CHAN is Busy only while CHAN_V is set (10_state R28); the
per-tick registers and the result registers agree with PHASE. -/
structure CoreInv (s : State) : Prop where
  within_capacity : WithinCapacity s
  halt_iff_fault : s.phase = .halt ↔ anyFault s = true
  code_stored : s.resCode ≠ .coreBusy
  chan_valid : s.chan = .busy → s.chanV = true
  phase_consistent : PhaseConsistent s
  result_consistent : ResultConsistent s

/-- A command word of opcode `op` with an immediate bit set at or above `low` is illegal (30_encoding R95, R97). -/
def ReservedAbove (op : BitVec 8) (low : Nat) : Prop :=
  ∀ imm : BitVec 24, imm >>> low ≠ 0 → decode (op ++ imm) = .error (.reservedImmediate op)

/-- The alphabet of the reversible encoding, in the order of the values its characters stand for: A to Z, a to z, 0 to
9, + and / (41_frame_primitives R144). -/
def b64Alphabet : Text :=
  (List.range' 0x41 26 ++ List.range' 0x61 26 ++ List.range' 0x30 10 ++ [0x2B, 0x2F]).map (BitVec.ofNat 8)

/-- SYNCWORD stands at index `i` of the bits (42_framecodec R164). -/
def SyncAt (bits : Bitstream) (i : Nat) : Prop := i + 16 ≤ bits.length ∧ (bits.drop i).take 16 = syncword

/-- All bytes are ASCII, at most 0x7F (42_framecodec R168). -/
def Ascii (text : Text) : Prop := ∀ b ∈ text, b.toNat ≤ 0x7F

/-- The environment after a call: one free value counted, the call logged. -/
def Env.after (e : Env) (call : Event) : Env := { e with calls := call :: e.calls, draws := e.draws + 1 }

/-- The frames that were played, the newest first: the samples of every AudioPlay call (20_memory R71). -/
def played : List Event → List (List Sample)
  | [] => []
  | .audioPlay x _ :: rest => x :: played rest
  | .audioRecord _ _ :: rest | .outboxFirst _ :: rest | .outboxRemove _ _ :: rest | .wait _ :: rest
  | .coreBusy :: rest | .registerRead _ _ :: rest | .tbRead _ :: rest | .bbRead _ :: rest | .sbRead _ :: rest =>
    played rest

/-- The removals that were asked for, the newest first (20_memory R73). -/
def removals : List Event → List Handle
  | [] => []
  | .outboxRemove h _ :: rest => h :: removals rest
  | .audioRecord _ _ :: rest | .audioPlay _ _ :: rest | .outboxFirst _ :: rest | .wait _ :: rest
  | .coreBusy :: rest | .registerRead _ _ :: rest | .tbRead _ :: rest | .bbRead _ :: rest | .sbRead _ :: rest =>
    removals rest

/-- The two states agree on the three buffers (10_state R21 to R23). -/
def SameBuffers (s t : State) : Prop := t.tb = s.tb ∧ t.bb = s.bb ∧ t.sb = s.sb

/-- The two states agree on RES_CODE and RES_VAL (10_state R24). -/
def SameResults (s t : State) : Prop := t.resCode = s.resCode ∧ t.resVal = s.resVal

/-- The two states agree on PHASE, LOOP, ENTRY and the per-tick flags (10_state R27, R28, R30). -/
def SameSequencer (s t : State) : Prop :=
  t.phase = s.phase ∧ t.loop = s.loop ∧ t.entryV = s.entryV ∧ t.entryH = s.entryH ∧ t.chanV = s.chanV
  ∧ t.chan = s.chan ∧ t.outcome = s.outcome

/-- The two states agree on the sticky flags (10_state R29). -/
def SameSticky (s t : State) : Prop :=
  t.rmfail = s.rmfail ∧ t.faultPlay = s.faultPlay ∧ t.faultCapture = s.faultCapture
  ∧ t.faultOutbox = s.faultOutbox ∧ t.faultOperand = s.faultOperand

/-- The two states agree on the configuration and the constants (10_state R32). -/
def SameConfig (s t : State) : Prop := t.cfg = s.cfg

/-- The two states agree on the environment: nothing was asked of a device, nothing was logged. -/
def SameEnv (s t : State) : Prop := t.env = s.env

/-- A fault flag that is set stays set (10_state R29). -/
def StickyKept (s t : State) : Prop :=
  (s.rmfail = true → t.rmfail = true) ∧ (s.faultPlay = true → t.faultPlay = true)
  ∧ (s.faultCapture = true → t.faultCapture = true) ∧ (s.faultOutbox = true → t.faultOutbox = true)
  ∧ (s.faultOperand = true → t.faultOperand = true)

end Sys2Proof.Machine
end

