-- ==== Sys2Proof/Certificates/Slice0/Obligations.lean ====
section
/-! DEFINITION. The statements for the provers, each from the numbered rules of spec/. A statement with a `Numerics`
argument holds for every numerics (00_scope R8); one about `exec` or `step` speaks of the machine's own, `theNum`.
Where a device is asked, `(nextRecord s).1` and its like are its answer: the first pending one, or a free value where
none is pending (`DeviceAnswersArePendingOrFree`, log entry 6). `exec` ignores pending inputs. -/

open Sys2Proof Sys2Proof.Machine

/-! ## The command word -/

/-- 30_encoding R94 to R96: no bit of an encoding is dropped, for every operand value the encoding admits. -/
def Obligations.DecodeOfEncodeIsTheInstruction : Prop :=
  ∀ i : Instr, i.wellFormed = true → decode (encode i) = .ok i

/-- 30_encoding R94 to R97: a word the decoder accepts is the one word of that instruction. -/
def Obligations.EncodeOfDecodeIsTheWord : Prop :=
  ∀ (w : Word) (i : Instr), decode w = .ok i → encode i = w ∧ i.wellFormed = true

/-- Words written out in 95_test_vectors (V60 and the programs P1 to P5) and from the table of 30_encoding R96. -/
def Obligations.SpecWordsDecodeToTheirOperations : Prop :=
  decode 0x01000001#32 = .ok (.encbit true) ∧ decode 0x03000000#32 = .ok .mod ∧ decode 0x04000000#32 = .ok .demod
  ∧ decode 0x12000000#32 = .ok .renc ∧ decode 0x14000000#32 = .ok .crc8 ∧ decode 0x19000000#32 = .ok .build
  ∧ decode 0x1A000000#32 = .ok .parse ∧ decode 0x20000000#32 = .ok .classify
  ∧ decode 0x210003E8#32 = .ok (.sense 1000) ∧ decode 0x30000001#32 = .ok (.decideAct true .free)
  ∧ decode 0x30000003#32 = .ok (.decideAct true .busy) ∧ decode 0x32000000#32 = .ok .xmit
  ∧ decode 0x34001388#32 = .ok (.listen 5000) ∧ decode 0x35000000#32 = .ok .tick
  ∧ decode 0x400003E8#32 = .ok (.recv 1000) ∧ decode 0x30000004#32 = .error (.reservedImmediate 0x30#8)

/-- 30_encoding R97: which words are illegal, and what an illegal word written in IDLE does. -/
def Obligations.IllegalCommandWordsAreRefused : Prop :=
  (∀ w : Word,
    ((opField w).toNat = 0x00 ∨ (0x05 ≤ (opField w).toNat ∧ (opField w).toNat ≤ 0x0F)
      ∨ (0x15 ≤ (opField w).toNat ∧ (opField w).toNat ≤ 0x17) ∨ (0x1B ≤ (opField w).toNat ∧ (opField w).toNat ≤ 0x1F)
      ∨ (0x22 ≤ (opField w).toNat ∧ (opField w).toNat ≤ 0x2F) ∨ (0x37 ≤ (opField w).toNat ∧ (opField w).toNat ≤ 0x3F)
      ∨ 0x41 ≤ (opField w).toNat) →
    decode w = .error (.unassignedOpcode (opField w)))
  ∧ ReservedAbove 0x01#8 1 ∧ ReservedAbove 0x30#8 2
  ∧ (∀ op ∈ [0x02#8, 0x03#8, 0x04#8, 0x10#8, 0x11#8, 0x12#8, 0x13#8, 0x14#8, 0x18#8, 0x19#8, 0x1A#8, 0x20#8, 0x31#8,
      0x32#8, 0x33#8, 0x35#8, 0x36#8], ReservedAbove op 0)
  ∧ (∀ (s : State) (w : Word) (e : DecodeError) (rest : List Input),
    validCfg s.cfg = true → s.phase = .idle → s.env.inputs = .writeReg 0 w :: rest → decode w = .error e →
    step s = .next { s with resCode := .illegalOp, resVal := 0#32, env := { s.env with inputs := rest } })

/-! ## The step -/

/-- 30_encoding R94, 60_exceptions R248(a), 10_state R33: a step with a CMD write pending runs the decoded instruction
on the state from which the write has been taken; an illegal word goes to the core's own refusal. The bits arrive by one
write and nothing else is added around `exec`. -/
def Obligations.StepRunsTheDecodedCommand : Prop :=
  ∀ (s : State) (w : Word) (rest : List Input),
    validCfg s.cfg = true → s.env.inputs = .writeReg 0 w :: rest →
    (∀ i, decode w = .ok i → step s = exec i { s with env := { s.env with inputs := rest } })
    ∧ (∀ e, decode w = .error e → step s = rejectIllegal { s with env := { s.env with inputs := rest } })

/-- 10_state R27, 44_scheduler R203: with nothing from outside the sequencer makes the step of its phase, waits in
IDLE, and is stuck in HALT. -/
def Obligations.StepWithoutInputIsTheSequencers : Prop :=
  ∀ s : State, validCfg s.cfg = true → s.env.inputs = [] →
    (s.phase = .halt → step s = .fault .halted)
    ∧ (s.phase ≠ .halt → step s = .next (sequencerStep theNum s))
    ∧ (s.phase = .idle → step s = .next s)

/-- 60_exceptions R246: a CMD write outside IDLE is discarded, whatever the word; nothing of the core changes. The
model's record of the interface (`env`) notes it: log entry 11. -/
def Obligations.CommandsOutsideIdleAreDiscarded : Prop :=
  (∀ (s : State) (w : Word) (rest : List Input),
    validCfg s.cfg = true → s.phase ≠ .idle → s.env.inputs = .writeReg 0 w :: rest →
    step s = .next { s with env := { s.env with inputs := rest, calls := .coreBusy :: s.env.calls } })
  ∧ Cause.coreBusy.code = 11#8
  ∧ (∀ s t : State, s.resCode ≠ .coreBusy → step s = .next t → t.resCode ≠ .coreBusy)

/-- 00_scope R5, R9, R10, 41_frame_primitives R149(c): which configurations are valid, that a core built with another is
given no meaning, and what it is for a sequence to fit a capacity. R10(f) is asked of the machine's numerics: log
entries 3, 5. -/
def Obligations.OnlyValidConfigurationsStep : Prop :=
  (∀ c : Cfg, validCfg c = true ↔
    (1 ≤ c.fs ∧ 1 ≤ c.tBitUs ∧ 1 ≤ c.fMark ∧ 1 ≤ c.fSpace
    ∧ (∀ k, c.tbCap = some k → 0 < k ∧ k < 2 ^ 32) ∧ (∀ k, c.bbCap = some k → 0 < k ∧ k < 2 ^ 32)
    ∧ (∀ k, c.sbCap = some k → 0 < k ∧ k < 2 ^ 32)
    ∧ 1 ≤ c.fs * c.tBitUs / 1000000
    ∧ c.fMark ≠ c.fSpace ∧ 2 * c.fMark < c.fs ∧ 2 * c.fSpace < c.fs
    ∧ (∀ f ∈ [c.fMark, c.fSpace], ∃ k : Nat, k ≤ chunkLen c / 2
        ∧ ((f : ℚ) - c.bandHw ≤ (k : ℚ) * c.fs / chunkLen c) ∧ ((k : ℚ) * c.fs / chunkLen c ≤ (f : ℚ) + c.bandHw))
    ∧ 0 ≤ c.thresh ∧ ToneRoundTrip theNum c))
  ∧ (∀ s : State, validCfg s.cfg = false → step s = .refused .invalidConfiguration)
  ∧ (∀ n, fits none n = true) ∧ (∀ k n, fits (some k) n = true ↔ n ≤ k)

/-- 10_state R38, 70_reset_and_hazards R260: what reset leaves, from every state and phase, in one step. ENTRY.H is
unspecified, so nothing is said of it. That the pending answers, the other inputs, the outbox and the record survive is
log entry 17; that the idle core then takes an empty step is log entry 9. -/
def Obligations.ResetLeavesTheResetState : Prop :=
  ∀ (s : State) (rest : List Input), validCfg s.cfg = true → s.env.inputs = .reset :: rest →
    ∃ t, step s = .next t
      ∧ t.phase = .idle ∧ t.loop = false ∧ t.entryV = false ∧ t.chanV = false ∧ t.chan = .free ∧ t.outcome = .none
      ∧ t.rmfail = false ∧ t.faultPlay = false ∧ t.faultCapture = false ∧ t.faultOutbox = false
      ∧ t.faultOperand = false ∧ t.resCode = .ok ∧ t.resVal = 0#32 ∧ t.tb = [] ∧ t.bb = [] ∧ t.sb = []
      ∧ t.cfg = s.cfg ∧ t.env = { s.env with inputs := rest }
      ∧ (rest = [] → step t = .next t)

/-! ## Invariants -/

/-- The invariant holds at the state after reset. -/
def Obligations.InvariantHoldsAtReset : Prop := CoreInv State.reset ∧ validCfg State.reset.cfg = true

/-- 10_state R25, R28, R29, 44_scheduler R199, R201, R203, R205, 60_exceptions R230, R239: every step, with whatever
input, keeps the invariant. That RES_VAL is the outcome beside a cause after T_END is log entry 16. -/
def Obligations.StepKeepsTheInvariant : Prop := ∀ s t : State, CoreInv s → step s = .next t → CoreInv t

/-- 10_state R32: no operation and no host action changes the configuration. -/
def Obligations.StepKeepsTheConfiguration : Prop := ∀ s t : State, step s = .next t → t.cfg = s.cfg

/-- 10_state R29, 44_scheduler R203, 60_exceptions R249, 70_reset_and_hazards R260: nothing but reset leaves HALT or
clears a sticky flag that is set. -/
def Obligations.OnlyResetLeavesHaltOrClearsAFlag : Prop :=
  ∀ s t : State, step s = .next t → s.env.inputs.head? ≠ some .reset →
    (s.phase = .halt → t.phase = .halt) ∧ StickyKept s t

/-- 20_memory R70 to R73: what a device answers is the first pending answer, and a free value where none is pending; the
answer and one free value are then used up, and nothing else changes. The form is log entry 6. -/
def Obligations.DeviceAnswersArePendingOrFree : Prop :=
  ∀ s : State,
    nextRecord s = (s.env.records.head?.getD (Config.freeRecord s.env.draws),
      { s with env := { s.env with records := s.env.records.tail, draws := s.env.draws + 1 } })
    ∧ nextPlay s = (s.env.plays.head?.getD (Config.freePlay s.env.draws),
      { s with env := { s.env with plays := s.env.plays.tail, draws := s.env.draws + 1 } })
    ∧ nextFirst s = (s.env.firsts.head?.getD (Config.freeFirst s.env.draws),
      { s with env := { s.env with firsts := s.env.firsts.tail, draws := s.env.draws + 1 } })
    ∧ nextRemove s = (s.env.removes.head?.getD (Config.freeRemove s.env.draws),
      { s with env := { s.env with removes := s.env.removes.tail, draws := s.env.draws + 1 } })

/-- 10_state R27, R28, 60_exceptions R239: no command writes CHAN_V, CHAN, OUTCOME or the configuration; every command
but TICK and RUN leaves LOOP alone and ends in IDLE, or in HALT with a fault flag set. -/
def Obligations.CommandsLeaveTheTickRegisters : Prop :=
  ∀ (i : Instr) (s : State), s.phase = .idle →
    ∃ t, exec i s = .next t ∧ t.chanV = s.chanV ∧ t.chan = s.chan ∧ t.outcome = s.outcome ∧ t.cfg = s.cfg
      ∧ (i ≠ .tick → i ≠ .run →
          t.loop = s.loop ∧ (t.phase = .idle ∨ (t.phase = .halt ∧ anyFault t = true)))

/-! ## Registers and the host -/

/-- 10_state R27, R28, R31: the fields of STATUS and the codes they show; a read has no side effect on the core, writes
are ignored. -/
def Obligations.StatusGathersTheFlags : Prop :=
  (∀ s : State,
    (statusWord s).extractLsb' 0 4 = BitVec.ofNat 4 s.phase.code ∧ (statusWord s).getLsbD 4 = s.loop
    ∧ (statusWord s).getLsbD 5 = s.entryV ∧ (statusWord s).getLsbD 6 = s.chanV
    ∧ (statusWord s).getLsbD 7 = s.chan.bit ∧ (statusWord s).extractLsb' 8 2 = BitVec.ofNat 2 s.outcome.code
    ∧ (statusWord s).getLsbD 10 = s.rmfail ∧ (statusWord s).getLsbD 11 = s.faultPlay
    ∧ (statusWord s).getLsbD 12 = s.faultCapture ∧ (statusWord s).getLsbD 13 = s.faultOutbox
    ∧ (statusWord s).getLsbD 14 = s.faultOperand ∧ (statusWord s).extractLsb' 15 17 = 0#17)
  ∧ (∀ (s : State) (rest : List Input), validCfg s.cfg = true → s.env.inputs = .readReg 1 :: rest →
      step s = .next { s with env := ({ s.env with inputs := rest }).after (.registerRead 1 (statusWord s)) })
  ∧ (∀ (s : State) (v : Word) (rest : List Input), validCfg s.cfg = true → s.env.inputs = .writeReg 1 v :: rest →
      step s = .next { s with env := { s.env with inputs := rest } })
  ∧ [Phase.idle, .tCheck, .tSense, .tXmit, .tRemove, .tListen, .tEnd, .tGap, .halt].map Phase.code
      = [0, 1, 2, 3, 4, 5, 6, 7, 15]
  ∧ [TickOutcome.none, .transmittedThisTick, .listenedThisTick].map TickOutcome.code = [0, 1, 2]
  ∧ [ChanState.free, .busy].map ChanState.bit = [false, true]

/-- 10_state R34, 60_exceptions R230: what each register number reads as, and the cause codes that RES_CODE shows. Where
a number is too large for 32 bits the spec states no value, so nothing is said (log entry 8). ENTRY_H and CFG_THRESH are
representations the platform gives (log entry 7). -/
def Obligations.RegisterMapByNumber : Prop :=
  ∀ s : State,
    registerWord s 0 = 0#32 ∧ registerWord s 1 = statusWord s ∧ registerWord s 2 = s.resCode.code.setWidth 32
    ∧ registerWord s 3 = s.resVal
    ∧ (∀ p ∈ [(4, s.tb.length), (5, s.bb.length), (6, s.sb.length), (16, s.cfg.fs), (17, s.cfg.tBitUs),
        (18, s.cfg.fMark), (19, s.cfg.fSpace), (20, s.cfg.bandHw), (22, s.cfg.noiseBits), (23, s.cfg.tTickMs),
        (24, s.cfg.tSenseMs), (25, s.cfg.tListenMs), (26, s.cfg.fs * s.cfg.tBitUs / 1000000)],
        p.2 < 2 ^ 32 → registerWord s p.1 = BitVec.ofNat 32 p.2)
    ∧ (s.entryV = true → registerWord s 7 = Config.handleWord s.entryH)
    ∧ registerWord s 21 = Config.magWord s.cfg.thresh
    ∧ registerWord s 27 = 0x0000AAAA#32 ∧ registerWord s 28 = 0x00000007#32
    ∧ (∀ n, (8 ≤ n ∧ n ≤ 15) ∨ 29 ≤ n → registerWord s n = 0#32)
    ∧ [Cause.ok, .syncNotFound, .malformedEncoding, .crcMismatch, .channelBusyContention, .playbackFailure,
        .captureFailure, .outboxFailure, .removeFailure, .badOperand, .illegalOp, .coreBusy].map Cause.code
      = [0#8, 1#8, 2#8, 3#8, 4#8, 5#8, 6#8, 7#8, 8#8, 9#8, 10#8, 11#8]

/-- 10_state R33, R34, 20_memory R66: reading any register changes nothing of the core, writing any but CMD nothing at
all. That a read outside the numbers R33 lists is answered outside IDLE too is log entry 10. -/
def Obligations.RegisterAccessChangesNothing : Prop :=
  ∀ (s : State) (n : Nat) (v : Word) (rest : List Input), validCfg s.cfg = true →
    (s.env.inputs = .readReg n :: rest →
      ∃ w, step s = .next { s with env := ({ s.env with inputs := rest }).after (.registerRead n w) }
        ∧ (n = 7 → s.entryV = true → w = Config.handleWord s.entryH) ∧ (n ≠ 7 → w = registerWord s n))
    ∧ (n ≠ 0 → s.env.inputs = .writeReg n v :: rest → step s = .next { s with env := { s.env with inputs := rest } })

/-- 10_state R33: HostLoad and HostRead work in IDLE on a sequence that fits, write no result register, and are no move
of the host otherwise (log entry 10). -/
def Obligations.HostReachesBuffersOnlyInIdle : Prop :=
  ∀ (s : State) (rest : List Input), validCfg s.cfg = true →
    (∀ v, s.env.inputs = .loadTb v :: rest → step s = if s.phase = .idle ∧ fits s.cfg.tbCap v.length = true
      then .next { s with tb := v, env := { s.env with inputs := rest } } else .refused .hostAccess)
    ∧ (∀ v, s.env.inputs = .loadBb v :: rest → step s = if s.phase = .idle ∧ fits s.cfg.bbCap v.length = true
      then .next { s with bb := v, env := { s.env with inputs := rest } } else .refused .hostAccess)
    ∧ (∀ v, s.env.inputs = .loadSb v :: rest → step s = if s.phase = .idle ∧ fits s.cfg.sbCap v.length = true
      then .next { s with sb := v, env := { s.env with inputs := rest } } else .refused .hostAccess)
    ∧ (s.env.inputs = .readTb :: rest → step s = if s.phase = .idle
      then .next { s with env := { s.env with inputs := rest, calls := .tbRead s.tb :: s.env.calls } }
      else .refused .hostAccess)
    ∧ (s.env.inputs = .readBb :: rest → step s = if s.phase = .idle
      then .next { s with env := { s.env with inputs := rest, calls := .bbRead s.bb :: s.env.calls } }
      else .refused .hostAccess)
    ∧ (s.env.inputs = .readSb :: rest → step s = if s.phase = .idle
      then .next { s with env := { s.env with inputs := rest, calls := .sbRead s.sb :: s.env.calls } }
      else .refused .hostAccess)

/-- 30_encoding R101, R102, 45_standalone R221, 60_exceptions R238: SEND text is HLOAD TB, text and then XMIT, without
sensing the channel; RECEIVE ms is RECV ms and then HREAD TB, which the host has in IDLE and not after a fault; and the
host's strings for RES_CODE, that of SyncNotFound a parameter (log entry 15). -/
def Obligations.SendReceiveAndMarkers : Prop :=
  (∀ (s : State) (text : Text) (rest : List Input), validCfg s.cfg = true → s.phase = .idle →
    fits s.cfg.tbCap text.length = true → s.env.inputs = sendInputs text ++ rest →
    ∃ t, step s = .next t ∧ step t = exec .xmit { s with tb := text, env := { s.env with inputs := rest } })
  ∧ (∀ (s : State) (ms : Nat) (rest : List Input), validCfg s.cfg = true → s.phase = .idle → ms < 2 ^ 24 →
    s.env.inputs = receiveInputs ms ++ rest →
    ∃ t, step s = .next t ∧ exec (.recv ms) { s with env := { s.env with inputs := .readTb :: rest } } = .next t
      ∧ (t.phase = .idle →
        step t = .next { t with env := { t.env with inputs := rest, calls := .tbRead t.tb :: t.env.calls } })
      ∧ (t.phase ≠ .idle → t.phase = .halt ∧ t.faultCapture = true ∧ step t = .refused .hostAccess))
  ∧ hostMarker .crcMismatch = some "[CRC ERROR]" ∧ hostMarker .malformedEncoding = some "[Decode Error]"
  ∧ hostMarker .syncNotFound = some Config.markerSyncNotFound ∧ hostMarker .ok = none

/-! ## The frame codec as functions -/

/-- 20_memory R60, R61, 41_frame_primitives R140: bytes become bits most significant first. -/
def Obligations.UnpackIsMostSignificantBitFirst : Prop :=
  ∀ bytes : Text, (fUnpack bytes).length = 8 * bytes.length
    ∧ ∀ j < 8 * bytes.length, (fUnpack bytes)[j]? = (bytes[j / 8]?).map fun v => v.getLsbD (7 - j % 8)

/-- 41_frame_primitives R141, 20_memory R62: bits become bytes, the trailing partial byte is dropped, and the two
functions undo each other. -/
def Obligations.PackInvertsUnpack : Prop :=
  (∀ bits : Bitstream, (fPack bits).length = bits.length / 8)
  ∧ (∀ (bits : Bitstream) (i : Nat), i < bits.length / 8 →
      ((fPack bits)[i]?).map BitVec.toNat
        = some (∑ j ∈ Finset.range 8, (bits.getD (8 * i + j) false).toNat * 2 ^ (7 - j)))
  ∧ (∀ bytes : Text, fPack (fUnpack bytes) = bytes)
  ∧ (∀ bits : Bitstream, fUnpack (fPack bits) = bits.take (8 * (bits.length / 8)))

/-- 41_frame_primitives R142, R143, R144: the encoder's image is printable, the encoder is injective, and the decoder is
valid exactly on the image and inverts it; and the instance is base64 with the standard alphabet and padding (log entry
22), character by character. -/
def Obligations.ReversibleEncodingIsPairedAndStrict : Prop :=
  (∀ (a : Text), ∀ b ∈ fRenc a, 0x20 ≤ b.toNat ∧ b.toNat ≤ 0x7E)
  ∧ (∀ a b : Text, fRenc a = fRenc b → a = b)
  ∧ (∀ y a : Text, fRdec y = some a ↔ y = fRenc a)
  ∧ (∀ y : Text, fRdec y = none ↔ ∀ a : Text, y ≠ fRenc a)
  ∧ b64Alphabet.length = 64 ∧ b64Pad = 0x3D#8
  ∧ (∀ v < 64, b64Alphabet[v]? = some (b64Char v))
  ∧ (∀ (b : Byte) (v : Nat), b64Val b = some v ↔ b64Alphabet[v]? = some b)
  ∧ fRenc [] = []
  ∧ (∀ x : Byte, fRenc [x] =
      [b64Char (x.toNat * 16 / 64), b64Char (x.toNat * 16 % 64), 0x3D#8, 0x3D#8])
  ∧ (∀ x y : Byte, fRenc [x, y] =
      [b64Char ((x.toNat * 256 + y.toNat) * 4 / 64 ^ 2), b64Char ((x.toNat * 256 + y.toNat) * 4 / 64 % 64),
        b64Char ((x.toNat * 256 + y.toNat) * 4 % 64), 0x3D#8])
  ∧ (∀ (x y z : Byte) (rest : Text), fRenc (x :: y :: z :: rest) =
      [b64Char ((x.toNat * 65536 + y.toNat * 256 + z.toNat) / 64 ^ 3),
        b64Char ((x.toNat * 65536 + y.toNat * 256 + z.toNat) / 64 ^ 2 % 64),
        b64Char ((x.toNat * 65536 + y.toNat * 256 + z.toNat) / 64 % 64),
        b64Char ((x.toNat * 65536 + y.toNat * 256 + z.toNat) % 64)] ++ fRenc rest)

/-- 41_frame_primitives R147, the procedure byte by byte: XOR, then 8 times the test of the high bit, the shift and the
XOR with 0x07; and its consequences R150 (a), (c), (d), and (b) as the change of one bit of one byte. -/
def Obligations.CrcIsThePolynomialDivision : Prop :=
  fCrc8 [] = 0#8
  ∧ (∀ (a : Text) (b : Byte), fCrc8 (a ++ [b]) =
      (fun acc : Byte => if acc.getLsbD 7 = true then (acc <<< 1) ^^^ 0x07#8 else acc <<< 1)^[8] (fCrc8 a ^^^ b))
  ∧ (∀ a b : Text, a.length = b.length → fCrc8 (List.zipWith (· ^^^ ·) a b) = fCrc8 a ^^^ fCrc8 b)
  ∧ (∀ (pre post : Text) (v : Byte) (k : Nat), k < 8 →
      fCrc8 (pre ++ (v ^^^ (1#8 <<< k)) :: post) ≠ fCrc8 (pre ++ v :: post))
  ∧ (∀ b : Text, fCrc8 (0#8 :: b) = fCrc8 b)
  ∧ (∀ b : Text, fCrc8 (b ++ [fCrc8 b]) = 0#8)

/-- 42_framecodec R164: the mathematical first occurrence of the exact 16 bits. -/
def Obligations.FsyncFindsTheFirstOccurrence : Prop :=
  ∀ bits : Bitstream,
    (∀ i, fFsync bits = some i ↔ SyncAt bits i ∧ ∀ j < i, ¬ SyncAt bits j)
    ∧ (fFsync bits = none ↔ ∀ i, ¬ SyncAt bits i)
    ∧ (bits.length < 16 → fFsync bits = none)

/-- 30_encoding R90, R91, 42_framecodec R162: the layout of a frame, bit by bit, and its length. -/
def Obligations.FrameLayoutIsBitExact : Prop :=
  ∀ text : Text,
    (∀ i < 16, (fBuild text)[i]? = some (decide (i % 2 = 0)))
    ∧ (∀ i j, j < 8 → i < (fRenc (text ++ [fCrc8 (fRenc text)])).length →
        (fBuild text)[16 + 8 * i + j]? = ((fRenc (text ++ [fCrc8 (fRenc text)]))[i]?).map fun v => v.getLsbD (7 - j))
    ∧ (fRenc (text ++ [fCrc8 (fRenc text)])).length = 4 * ((text.length + 1 + 2) / 3)
    ∧ (fBuild text).length = 16 + 32 * ((text.length + 1 + 2) / 3)

/-- 42_framecodec R168: the round trip for every ASCII text, control bytes included, and what happens to any other. -/
def Obligations.FrameRoundTrip : Prop :=
  (∀ text : Text, Ascii text → fParse (fBuild text) = .ok text)
  ∧ (∀ text : Text, ¬ Ascii text → fParse (fBuild text) = .malformedEncoding)

/-- 42_framecodec R169: which bits may stand before a frame. -/
def Obligations.BitsBeforeAFrame : Prop :=
  ∀ (pre : Bitstream) (text : Text), Ascii text →
    (fFsync (pre ++ fBuild text) = some pre.length → fParse (pre ++ fBuild text) = .ok text)
    ∧ (fFsync (pre ++ fBuild text) = some pre.length
        ↔ (∀ i, ¬ SyncAt pre i) ∧ ¬ [true, false] <:+ pre)
    ∧ ((∀ i, ¬ SyncAt pre i) → [true, false] <:+ pre →
        (∃ i, fFsync (pre ++ fBuild text) = some i ∧ i + 2 ≤ pre.length)
        ∧ fParse (pre ++ fBuild text) = .malformedEncoding)

/-- 42_framecodec R170: up to 7 bits after a frame are dropped; more add bytes, and a number of them that is no multiple
of 4, or one that is neither of the alphabet nor the pad character, makes the encoding malformed. -/
def Obligations.BitsAfterAFrame : Prop :=
  ∀ (text : Text) (post : Bitstream), Ascii text →
    (post.length ≤ 7 → fParse (fBuild text ++ post) = .ok text)
    ∧ ((post.length / 8) % 4 ≠ 0 → fParse (fBuild text ++ post) = .malformedEncoding)
    ∧ ((∃ b ∈ fPack post, b64Val b = none ∧ b ≠ b64Pad) → fParse (fBuild text ++ post) = .malformedEncoding)

/-! ## The tone codec -/

/-- 40_tonecodec R121, 00_scope R8: a tone is N samples of NUM.tone at the bit's frequency, for every numerics; and over
the reals, in which the rule is written, they are the half-amplitude sine, with the consequences the rule draws. -/
def Obligations.ToneSamplesAreTheHalfAmplitudeSine : Prop :=
  (∀ (num : Numerics) (c : Cfg) (b : Bit),
    (fEncbit num c b).length = c.fs * c.tBitUs / 1000000
    ∧ (∀ n < chunkLen c, (fEncbit num c b)[n]? = some (num.tone c (if b then c.fMark else c.fSpace) n))
    ∧ ((∀ f n, sampleValue (num.tone c f n) = exactTone c f n) → (fEncbit num c b).map sampleValue = exactEncbit c b))
  ∧ (∀ (c : Cfg) (b : Bit),
    (exactEncbit c b).length = c.fs * c.tBitUs / 1000000
    ∧ (∀ n < chunkLen c, (exactEncbit c b)[n]?
        = some (1 / 2 * Real.sin (2 * Real.pi * (if b then c.fMark else c.fSpace : ℕ) * n / c.fs)))
    ∧ (∀ x ∈ exactEncbit c b, -(1 / 2) ≤ x ∧ x ≤ 1 / 2)
    ∧ (∀ x, (exactEncbit c b)[0]? = some x → x = 0))

/-- 40_tonecodec R124: the rows of the case table, for the machine's comparisons under every numerics and for the
reals. -/
def Obligations.DecisionTableOfDecbit : Prop :=
  (∀ (num : Numerics) (c : Cfg) (x : List Sample) (m s t : Mag),
    num.bandmag c x c.fMark = m → num.bandmag c x c.fSpace = s → c.thresh = t →
    (m > s → m > t → fDecbit num c x = some true) ∧ (m > s → m ≤ t → fDecbit num c x = none)
    ∧ (m = s → s > t → fDecbit num c x = some false) ∧ (m = s → s ≤ t → fDecbit num c x = none)
    ∧ (m < s → s > t → fDecbit num c x = some false) ∧ (m < s → s ≤ t → fDecbit num c x = none)
    ∧ (m = t → s < m → fDecbit num c x = none))
  ∧ (∀ (c : Cfg) (x : List ℝ) (m s t : ℝ),
    bandMagnitude c x c.fMark = m → bandMagnitude c x c.fSpace = s → (c.thresh : ℝ) = t →
    (m > s → m > t → exactDecbit c x = some true) ∧ (m > s → m ≤ t → exactDecbit c x = none)
    ∧ (m = s → s > t → exactDecbit c x = some false) ∧ (m = s → s ≤ t → exactDecbit c x = none)
    ∧ (m < s → s > t → exactDecbit c x = some false) ∧ (m < s → s ≤ t → exactDecbit c x = none)
    ∧ (m = t → s < m → exactDecbit c x = none))

/-- 00_scope R8, 40_tonecodec R132: a numerics whose comparisons are the exact ones decodes as the reals do; there is
one that is exact in every tone and every chunk, so the machine's parameter admits the reference semantics (log entry
3); and of such a one ToneRoundTrip says what it says over the reals. -/
def Obligations.SomeNumericsIsTheExactOne : Prop :=
  (∀ (num : Numerics) (c : Cfg) (x : List Sample), ReadsExactly num c x →
    fDecbit num c x = exactDecbit c (x.map sampleValue))
  ∧ (∃ num : Numerics, ExactNum num)
  ∧ (∀ (num : Numerics) (c : Cfg), ExactNum num → (ToneRoundTrip num c ↔ ExactToneRoundTrip c))

/-- 40_tonecodec R126: with both tones on a bin, neither window holding the other tone, and a low enough threshold, the
spectrum of a tone is N/4 at its bin and 0 at every other, and the tone round trip holds over the reals. -/
def Obligations.OnBinTonesRoundTrip : Prop :=
  ∀ (c : Cfg) (k1 k0 : Nat), OnBinTones c k1 k0 →
    (∀ b : Bit, ∀ k ≤ chunkLen c / 2,
      magnitude (exactEncbit c b) k
        = if k = (if b then k1 else k0) then (chunkLen c : ℝ) / 4 else 0)
    ∧ ExactToneRoundTrip c

/-- 40_tonecodec R131, for every numerics. -/
def Obligations.DemodulationUndoesModulation : Prop :=
  ∀ (num : Numerics) (c : Cfg), 1 ≤ chunkLen c → ToneRoundTrip num c →
    ∀ bits : Bitstream, fDemod num c (fMod num c bits) = bits

/-- 43_channelsensor R184, for every numerics; and R182, 70_reset_and_hazards R273: a window of at most NOISE_BITS
chunks is Free whatever is heard. -/
def Obligations.SensorIsBusyAboveTheNoiseFloor : Prop :=
  ∀ (num : Numerics) (c : Cfg) (x : List Sample),
    (fClassify c (fDemod num c x) = .busy
      ↔ c.noiseBits + 1 ≤ ((List.range (x.length / chunkLen c)).countP fun j =>
          (fDecbit num c ((x.drop (j * chunkLen c)).take (chunkLen c))).isSome))
    ∧ (x.length / chunkLen c ≤ c.noiseBits → fClassify c (fDemod num c x) = .free)

/-- 45_standalone R220 with 40_tonecodec R131 and 42_framecodec R168: a recording that is chunks of silence, an aligned
and undisturbed frame, and chunks of silence again is received as the frame's text, for every numerics that round-trips
the tones and finds the silent chunks Undetermined. -/
def Obligations.AlignedFrameIsReceived : Prop :=
  ∀ (num : Numerics) (s : State) (ms : Nat) (before after : List (List Sample)) (heard : List Sample) (text : Text),
    ToneRoundTrip num s.cfg → 1 ≤ chunkLen s.cfg →
    (∀ x ∈ before ++ after, x.length = chunkLen s.cfg ∧ fDecbit num s.cfg x = none) →
    heard = before.flatten ++ fMod num s.cfg (fBuild text) ++ after.flatten →
    Ascii text → samplesOf s.cfg ms = heard.length → (nextRecord s).1 = .ok heard →
    fits s.cfg.sbCap heard.length = true → fits s.cfg.bbCap (heard.length / chunkLen s.cfg) = true →
    fits s.cfg.tbCap text.length = true →
    recvOp num ms s = { s with
      tb := text, bb := fBuild text, sb := heard, resCode := .ok, resVal := 0#32
      env := ({ s.env with records := s.env.records.tail }).after (.audioRecord heard.length .ok) }

/-! ## Results of the operations

Each statement gives the whole next state of the instruction, so that everything not named in it is unchanged: the
registers, the flags, the buffers and the environment. -/

/-- 40_tonecodec R122. -/
def Obligations.EncbitWritesTheTone : Prop :=
  (∀ (b : Bit) (s : State), s.phase = .idle →
    exec (.encbit b) s =
      if fits s.cfg.sbCap (chunkLen s.cfg) = true
      then .next { s with sb := fEncbit theNum s.cfg b, resCode := .ok, resVal := 0#32 }
      else .next { s with resCode := .badOperand, resVal := 0#32 })
  ∧ ReservedAbove 0x01#8 1

/-- 40_tonecodec R125: the whole of SB is the chunk; no buffer is changed. -/
def Obligations.DecbitReadsTheWholeOfSb : Prop :=
  (∀ s : State, s.phase = .idle →
    (s.sb = [] ∨ window s.cfg s.cfg.fMark s.sb.length = [] ∨ window s.cfg s.cfg.fSpace s.sb.length = [] →
      exec .decbit s = .next { s with resCode := .badOperand, resVal := 0#32 })
    ∧ (s.sb ≠ [] → window s.cfg s.cfg.fMark s.sb.length ≠ [] → window s.cfg s.cfg.fSpace s.sb.length ≠ [] →
      exec .decbit s = .next { s with
        resCode := .ok
        resVal := match fDecbit theNum s.cfg s.sb with
          | some true => 1#32
          | some false => 0#32
          | none => 2#32 }))
  ∧ ReservedAbove 0x02#8 0

/-- 40_tonecodec R127: F_MOD is the tones one after another, each starting anew, and MOD writes it to SB. -/
def Obligations.ModWritesOneTonePerBit : Prop :=
  (∀ (num : Numerics) (c : Cfg) (bits : Bitstream), (fMod num c bits).length = chunkLen c * bits.length
    ∧ ∀ j n, n < chunkLen c → (fMod num c bits)[j * chunkLen c + n]? = (bits[j]?).bind fun b => (fEncbit num c b)[n]?)
  ∧ (∀ s : State, s.phase = .idle →
    exec .mod s =
      if fits s.cfg.sbCap (chunkLen s.cfg * s.bb.length) = true
      then .next { s with sb := fMod theNum s.cfg s.bb, resCode := .ok, resVal := 0#32 }
      else .next { s with resCode := .badOperand, resVal := 0#32 })
  ∧ ReservedAbove 0x03#8 0

/-- 40_tonecodec R128, R129, R130: DEMOD writes the decoded bits, Undetermined chunks dropped; at most one a chunk. -/
def Obligations.DemodDropsUndeterminedChunks : Prop :=
  (∀ (num : Numerics) (c : Cfg) (x : List Sample),
    fDemod num c x = ((List.range (x.length / chunkLen c)).map fun j =>
        fDecbit num c ((x.drop (j * chunkLen c)).take (chunkLen c))).reduceOption
    ∧ (fDemod num c x).length ≤ x.length / chunkLen c
    ∧ (x.length < chunkLen c → fDemod num c x = []))
  ∧ (∀ s : State, s.phase = .idle →
    exec .demod s =
      if fits s.cfg.bbCap (s.sb.length / chunkLen s.cfg) = true
      then .next { s with bb := fDemod theNum s.cfg s.sb, resCode := .ok, resVal := 0#32 }
      else .next { s with resCode := .badOperand, resVal := 0#32 })
  ∧ ReservedAbove 0x04#8 0

/-- 41_frame_primitives R140, R141, R145, R146, R148: UNPACK writes BB from TB and PACK writes TB from BB; RENC and RDEC
rewrite TB, an invalid TB is kept; CRC8 changes no buffer. -/
def Obligations.FramePrimitiveOperations : Prop :=
  (∀ s : State, s.phase = .idle →
    exec .unpack s =
      (if fits s.cfg.bbCap (8 * s.tb.length) = true
      then .next { s with bb := fUnpack s.tb, resCode := .ok, resVal := 0#32 }
      else .next { s with resCode := .badOperand, resVal := 0#32 })
    ∧ exec .pack s =
      (if fits s.cfg.tbCap (s.bb.length / 8) = true
      then .next { s with tb := fPack s.bb, resCode := .ok, resVal := 0#32 }
      else .next { s with resCode := .badOperand, resVal := 0#32 })
    ∧ exec .renc s =
      (if fits s.cfg.tbCap (fRenc s.tb).length = true
      then .next { s with tb := fRenc s.tb, resCode := .ok, resVal := 0#32 }
      else .next { s with resCode := .badOperand, resVal := 0#32 })
    ∧ (fRdec s.tb = none → exec .rdec s = .next { s with resCode := .malformedEncoding, resVal := 0#32 })
    ∧ (∀ bytes, fRdec s.tb = some bytes →
        exec .rdec s = .next { s with tb := bytes, resCode := .ok, resVal := 0#32 } ∧ bytes.length ≤ s.tb.length)
    ∧ exec .crc8 s = .next { s with resCode := .ok, resVal := (fCrc8 s.tb).setWidth 32 })
  ∧ ReservedAbove 0x10#8 0 ∧ ReservedAbove 0x11#8 0
  ∧ ReservedAbove 0x12#8 0 ∧ ReservedAbove 0x13#8 0 ∧ ReservedAbove 0x14#8 0

/-- 42_framecodec R163, R165, R167. An index of SYNCWORD that 32 bits cannot hold has no stated value (log entry 8). -/
def Obligations.FsyncBuildAndParse : Prop :=
  (∀ s : State, s.phase = .idle →
    (fFsync s.bb = none → exec .fsync s = .next { s with resCode := .syncNotFound, resVal := 0#32 })
    ∧ (∀ i, fFsync s.bb = some i → i < 2 ^ 32 →
        exec .fsync s = .next { s with resCode := .ok, resVal := BitVec.ofNat 32 i })
    ∧ exec .build s =
      (if fits s.cfg.bbCap (fBuild s.tb).length = true
      then .next { s with bb := fBuild s.tb, resCode := .ok, resVal := 0#32 }
      else .next { s with resCode := .badOperand, resVal := 0#32 })
    ∧ (fParse s.bb = .syncNotFound →
        exec .parse s = .next { s with tb := [], resCode := .syncNotFound, resVal := 0#32 })
    ∧ (fParse s.bb = .malformedEncoding →
        exec .parse s = .next { s with tb := [], resCode := .malformedEncoding, resVal := 0#32 })
    ∧ (∀ p, fParse s.bb = .ok p → exec .parse s =
        if fits s.cfg.tbCap p.length = true then .next { s with tb := p, resCode := .ok, resVal := 0#32 }
        else .next { s with resCode := .badOperand, resVal := 0#32 })
    ∧ (∀ p, fParse s.bb = .crcMismatch p → exec .parse s =
        if fits s.cfg.tbCap p.length = true then .next { s with tb := p, resCode := .crcMismatch, resVal := 0#32 }
        else .next { s with resCode := .badOperand, resVal := 0#32 }))
  ∧ ReservedAbove 0x18#8 0 ∧ ReservedAbove 0x19#8 0 ∧ ReservedAbove 0x1A#8 0

/-- 42_framecodec R166: the order of the tests of F_PARSE. -/
def Obligations.ParseTestsInTheSourcesOrder : Prop :=
  ∀ bits : Bitstream,
    (fFsync bits = none → fParse bits = .syncNotFound)
    ∧ ∀ i, fFsync bits = some i →
      (fRdec (fPack (bits.drop (i + 16))) = none → fParse bits = .malformedEncoding)
      ∧ (fRdec (fPack (bits.drop (i + 16))) = some [] → fParse bits = .malformedEncoding)
      ∧ ∀ payload c, fRdec (fPack (bits.drop (i + 16))) = some (payload ++ [c]) →
        ((∃ b ∈ payload, 0x80 ≤ b.toNat) → fParse bits = .malformedEncoding)
        ∧ ((∀ b ∈ payload, b.toNat < 0x80) → fCrc8 (fRenc payload) ≠ c → fParse bits = .crcMismatch payload)
        ∧ ((∀ b ∈ payload, b.toNat < 0x80) → fCrc8 (fRenc payload) = c → fParse bits = .ok payload)

/-- 43_channelsensor R180, R181, 44_scheduler R191, R192: no buffer, flag or device is touched. -/
def Obligations.ClassifyAndDecideOnlyAnswer : Prop :=
  (∀ s : State, s.phase = .idle →
    exec .classify s =
      .next { s with resCode := .ok, resVal := if s.bb.length > s.cfg.noiseBits then 1#32 else 0#32 })
  ∧ (∀ (e : Bit) (ch : ChanState) (s : State), s.phase = .idle →
    exec (.decideAct e ch) s =
      .next { s with resCode := .ok, resVal := if e = true ∧ ch = .free then 1#32 else 0#32 })
  ∧ ReservedAbove 0x20#8 0 ∧ ReservedAbove 0x30#8 2

/-- 43_channelsensor R182, 20_memory R70: SENSE refuses before anything is recorded; records exactly samples(ms)
samples; keeps them in SB and their bits in BB; a capture failure halts. Where the pending answer gives fewer samples
than asked for, the others are free values (log entry 6). -/
def Obligations.SenseRecordsAndClassifies : Prop :=
  ∀ (ms n : Nat) (s : State), s.phase = .idle → n = s.cfg.fs * ms / 1000 →
    ((fits s.cfg.sbCap n && fits s.cfg.bbCap (n / chunkLen s.cfg)) = false →
      exec (.sense ms) s = .next { s with resCode := .badOperand, resVal := 0#32 })
    ∧ ((fits s.cfg.sbCap n && fits s.cfg.bbCap (n / chunkLen s.cfg)) = true →
      (n = 0 → exec (.sense ms) s = .next { s with
          sb := [], bb := [], resCode := .ok, resVal := 0#32
          env := { s.env with calls := .audioRecord 0 .ok :: s.env.calls } })
      ∧ (∀ heard, n ≠ 0 → (nextRecord s).1 = .ok heard →
        ∃ x, x.length = n ∧ x.take heard.length = heard.take n ∧ (heard.length = n → x = heard)
          ∧ exec (.sense ms) s = .next { s with
            sb := x, bb := fDemod theNum s.cfg x, resCode := .ok
            resVal := if (fDemod theNum s.cfg x).length > s.cfg.noiseBits then 1#32 else 0#32
            env := ({ s.env with records := s.env.records.tail }).after (.audioRecord n .ok) })
      ∧ (n ≠ 0 → (nextRecord s).1 = .fail →
        exec (.sense ms) s = .next { s with
          faultCapture := true, phase := .halt, resCode := .captureFailure, resVal := 0#32
          env := ({ s.env with records := s.env.records.tail }).after (.audioRecord n .fail) }))

/-- 45_standalone R220: one recording as SENSE makes it, then exactly PARSE on its bits. A payload that does not fit TB
is refused with no buffer written (10_state R25); that the recording was made by then is log entry 13. -/
def Obligations.RecvRecordsAndParses : Prop :=
  ∀ (ms n : Nat) (s : State), s.phase = .idle → n = s.cfg.fs * ms / 1000 →
    ((fits s.cfg.sbCap n && fits s.cfg.bbCap (n / chunkLen s.cfg)) = false →
      exec (.recv ms) s = .next { s with resCode := .badOperand, resVal := 0#32 })
    ∧ ((fits s.cfg.sbCap n && fits s.cfg.bbCap (n / chunkLen s.cfg)) = true →
      (n = 0 → exec (.recv ms) s = .next { s with
          sb := [], bb := [], tb := [], resCode := .syncNotFound, resVal := 0#32
          env := { s.env with calls := .audioRecord 0 .ok :: s.env.calls } })
      ∧ (∀ heard, n ≠ 0 → (nextRecord s).1 = .ok heard →
        ∃ x u t, x.length = n ∧ x.take heard.length = heard.take n ∧ (heard.length = n → x = heard)
          ∧ u = { s with env := ({ s.env with records := s.env.records.tail }).after (.audioRecord n .ok) }
          ∧ exec (.recv ms) s = .next t
          ∧ match fParse (fDemod theNum s.cfg x) with
            | .ok p | .crcMismatch p =>
              if fits s.cfg.tbCap p.length = true
              then exec .parse { u with sb := x, bb := fDemod theNum s.cfg x } = .next t
              else t = { u with resCode := .badOperand, resVal := 0#32 }
            | .syncNotFound | .malformedEncoding =>
              exec .parse { u with sb := x, bb := fDemod theNum s.cfg x } = .next t)
      ∧ (n ≠ 0 → (nextRecord s).1 = .fail →
        exec (.recv ms) s = .next { s with
          faultCapture := true, phase := .halt, resCode := .captureFailure, resVal := 0#32
          env := ({ s.env with records := s.env.records.tail }).after (.audioRecord n .fail) }))

/-- 44_scheduler R195, 20_memory R72: any entry that is present may be the one found; the outbox is not changed. That a
text too long is refused after OutboxFirst has been called is log entry 13. -/
def Obligations.ChkoutTakesOverAnEntry : Prop :=
  ∀ s : State, s.phase = .idle →
    ((nextFirst s).1 = .fail →
      exec .chkout s = .next { s with
        faultOutbox := true, phase := .halt, resCode := .outboxFailure, resVal := 0#32
        env := ({ s.env with firsts := s.env.firsts.tail }).after (.outboxFirst .fail) })
    ∧ (∀ k, (nextFirst s).1 = .pick k → s.env.outbox = [] →
      exec .chkout s = .next { s with
        entryV := false, resCode := .ok, resVal := 0#32
        env := ({ s.env with firsts := s.env.firsts.tail }).after (.outboxFirst .none) })
    ∧ (∀ k e, (nextFirst s).1 = .pick k → s.env.outbox[k % s.env.outbox.length]? = some e →
      exec .chkout s =
        if fits s.cfg.tbCap e.text.length = true
        then .next { s with
          entryV := true, entryH := e.handle, tb := e.text, resCode := .ok, resVal := 1#32
          env := ({ s.env with firsts := s.env.firsts.tail }).after (.outboxFirst (.some e.handle e.text)) }
        else .next { s with
          resCode := .badOperand, resVal := 0#32
          env := ({ s.env with firsts := s.env.firsts.tail }).after (.outboxFirst (.some e.handle e.text)) })

/-- 44_scheduler R196, 20_memory R71: the frame of TB in BB, its tones in SB, one playback of them; TB, ENTRY and the
outbox untouched. That BB and SB are written when the playback fails is log entry 14. -/
def Obligations.XmitPlaysTheFrameOfTb : Prop :=
  ∀ s : State, s.phase = .idle →
    ((fits s.cfg.bbCap (fBuild s.tb).length && fits s.cfg.sbCap (chunkLen s.cfg * (fBuild s.tb).length)) = false →
      exec .xmit s = .next { s with resCode := .badOperand, resVal := 0#32 })
    ∧ ((fits s.cfg.bbCap (fBuild s.tb).length && fits s.cfg.sbCap (chunkLen s.cfg * (fBuild s.tb).length)) = true →
      ((nextPlay s).1 = .ok →
        exec .xmit s = .next { s with
          bb := fBuild s.tb, sb := fMod theNum s.cfg (fBuild s.tb), resCode := .ok, resVal := 0#32
          env := ({ s.env with plays := s.env.plays.tail }).after (.audioPlay (fMod theNum s.cfg (fBuild s.tb)) .ok) })
      ∧ ((nextPlay s).1 = .fail →
        exec .xmit s = .next { s with
          bb := fBuild s.tb, sb := fMod theNum s.cfg (fBuild s.tb)
          faultPlay := true, phase := .halt, resCode := .playbackFailure, resVal := 0#32
          env := ({ s.env with plays := s.env.plays.tail }).after
            (.audioPlay (fMod theNum s.cfg (fBuild s.tb)) .fail) }))

/-- 44_scheduler R197, 20_memory R73: the entry named by ENTRY.H leaves the outbox and no other; a failed deletion is no
fault. That every entry of that handle goes is log entry 17. -/
def Obligations.RemoveDeletesTheEntry : Prop :=
  ∀ s : State, s.phase = .idle →
    (s.entryV = false → exec .remove s = .next { s with resCode := .badOperand, resVal := 0#32 })
    ∧ (s.entryV = true → (nextRemove s).1 = .ok →
      exec .remove s = .next { s with
        entryV := false, resCode := .ok, resVal := 0#32
        env := ({ s.env with
          removes := s.env.removes.tail, outbox := s.env.outbox.filter fun e => decide (e.handle ≠ s.entryH) }).after
          (.outboxRemove s.entryH .ok) })
    ∧ (s.entryV = true → (nextRemove s).1 = .fail →
      exec .remove s = .next { s with
        entryV := false, rmfail := true, resCode := .removeFailure, resVal := 0#32
        env := ({ s.env with removes := s.env.removes.tail }).after (.outboxRemove s.entryH .fail) })

/-- 44_scheduler R198: the samples are discarded, no buffer is written, no capacity is needed. -/
def Obligations.ListenDiscardsTheSamples : Prop :=
  ∀ (ms n : Nat) (s : State), s.phase = .idle → n = s.cfg.fs * ms / 1000 →
    (n = 0 → exec (.listen ms) s = .next { s with
        resCode := .ok, resVal := 0#32, env := { s.env with calls := .audioRecord 0 .ok :: s.env.calls } })
    ∧ (∀ heard, n ≠ 0 → (nextRecord s).1 = .ok heard →
      exec (.listen ms) s = .next { s with
        resCode := .ok, resVal := 0#32
        env := ({ s.env with records := s.env.records.tail }).after (.audioRecord n .ok) })
    ∧ (n ≠ 0 → (nextRecord s).1 = .fail →
      exec (.listen ms) s = .next { s with
        faultCapture := true, phase := .halt, resCode := .captureFailure, resVal := 0#32
        env := ({ s.env with records := s.env.records.tail }).after (.audioRecord n .fail) })

/-- 44_scheduler R199, R200: TICK and RUN set LOOP and send the sequencer to T_CHECK. That the result registers are
written by T_CHECK and not by the command is log entry 12. -/
def Obligations.TickAndRunStartTheSequencer : Prop :=
  ∀ s : State, s.phase = .idle →
    exec .tick s = .next { s with loop := false, phase := .tCheck }
    ∧ exec .run s = .next { s with loop := true, phase := .tCheck }

/-! ## The tick, for every numerics -/

/-- 44_scheduler R203, row T_CHECK, with R201. That a text too long is refused after OutboxFirst has been called is log
entry 13. -/
def Obligations.CheckStepOfATick : Prop :=
  ∀ (num : Numerics) (s : State), s.phase = .tCheck →
    ((nextFirst s).1 = .fail →
      sequencerStep num s = { s with
        entryV := false, chanV := false, chan := .free, outcome := .none
        faultOutbox := true, phase := .halt, resCode := .outboxFailure, resVal := 0#32
        env := ({ s.env with firsts := s.env.firsts.tail }).after (.outboxFirst .fail) })
    ∧ (∀ k, (nextFirst s).1 = .pick k → s.env.outbox = [] →
      sequencerStep num s = { s with
        entryV := false, chanV := false, chan := .free, outcome := .none, resCode := .ok, resVal := 0#32
        phase := .tListen
        env := ({ s.env with firsts := s.env.firsts.tail }).after (.outboxFirst .none) })
    ∧ (∀ k e, (nextFirst s).1 = .pick k → s.env.outbox[k % s.env.outbox.length]? = some e →
      sequencerStep num s =
        if fits s.cfg.tbCap e.text.length = true
        then { s with
          entryV := true, entryH := e.handle, tb := e.text, chanV := false, chan := .free, outcome := .none
          resCode := .ok, resVal := 0#32, phase := .tSense
          env := ({ s.env with firsts := s.env.firsts.tail }).after (.outboxFirst (.some e.handle e.text)) }
        else { s with
          entryV := false, chanV := false, chan := .free, outcome := .none
          faultOperand := true, phase := .halt, resCode := .badOperand, resVal := 0#32
          env := ({ s.env with firsts := s.env.firsts.tail }).after (.outboxFirst (.some e.handle e.text)) })

/-- 44_scheduler R203, row T_SENSE, with the branch of R191 where an entry is held; TB is not touched (R204). That the
step takes its row's branch by CHAN alone, also in states with ENTRY.V = 0, which no run reaches, is log entry 23. -/
def Obligations.SenseStepOfATick : Prop :=
  ∀ (num : Numerics) (s : State) (n : Nat), s.phase = .tSense → n = samplesOf s.cfg s.cfg.tSenseMs →
    ((fits s.cfg.sbCap n && fits s.cfg.bbCap (n / chunkLen s.cfg)) = false →
      sequencerStep num s = { s with
        faultOperand := true, phase := .halt, resCode := .badOperand, resVal := 0#32 })
    ∧ ((fits s.cfg.sbCap n && fits s.cfg.bbCap (n / chunkLen s.cfg)) = true →
      (n = 0 →
        sequencerStep num s = { s with
          sb := [], bb := [], chanV := true, chan := .free, phase := .tXmit
          env := { s.env with calls := .audioRecord 0 .ok :: s.env.calls } })
      ∧ (n ≠ 0 → (nextRecord s).1 = .fail →
        sequencerStep num s = { s with
          faultCapture := true, phase := .halt, resCode := .captureFailure, resVal := 0#32
          env := ({ s.env with records := s.env.records.tail }).after (.audioRecord n .fail) })
      ∧ (∀ heard, n ≠ 0 → (nextRecord s).1 = .ok heard →
        ∃ x, x.length = n ∧ x.take heard.length = heard.take n ∧ (heard.length = n → x = heard)
          ∧ ((fDemod num s.cfg x).length ≤ s.cfg.noiseBits →
            sequencerStep num s = { s with
              sb := x, bb := fDemod num s.cfg x, chanV := true, chan := .free, phase := .tXmit
              env := ({ s.env with records := s.env.records.tail }).after (.audioRecord n .ok) })
          ∧ (s.cfg.noiseBits < (fDemod num s.cfg x).length →
            sequencerStep num s = { s with
              sb := x, bb := fDemod num s.cfg x, chanV := true, chan := .busy
              resCode := .channelBusyContention, phase := .tListen
              env := ({ s.env with records := s.env.records.tail }).after (.audioRecord n .ok) })))
    ∧ fDecide true .free = .transmit ∧ fDecide true .busy = .listen

/-- 44_scheduler R203, rows T_XMIT and T_REMOVE, with R196, R239 and R73. That BB and SB are written when the playback
fails is log entry 14; that T_REMOVE reads ENTRY.H also in states with ENTRY.V = 0, which no run reaches, log entry 23;
that every entry of that handle goes, log entry 17. -/
def Obligations.XmitAndRemoveStepsOfATick : Prop :=
  ∀ (num : Numerics) (s : State),
    (s.phase = .tXmit →
      ((fits s.cfg.bbCap (fBuild s.tb).length && fits s.cfg.sbCap (chunkLen s.cfg * (fBuild s.tb).length)) = false →
        sequencerStep num s = { s with
          faultOperand := true, phase := .halt, resCode := .badOperand, resVal := 0#32 })
      ∧ ((fits s.cfg.bbCap (fBuild s.tb).length && fits s.cfg.sbCap (chunkLen s.cfg * (fBuild s.tb).length)) = true →
        ((nextPlay s).1 = .ok →
          sequencerStep num s = { s with
            bb := fBuild s.tb, sb := fMod num s.cfg (fBuild s.tb), phase := .tRemove
            env := ({ s.env with plays := s.env.plays.tail }).after (.audioPlay (fMod num s.cfg (fBuild s.tb)) .ok) })
        ∧ ((nextPlay s).1 = .fail →
          sequencerStep num s = { s with
            bb := fBuild s.tb, sb := fMod num s.cfg (fBuild s.tb)
            faultPlay := true, phase := .halt, resCode := .playbackFailure, resVal := 0#32
            env := ({ s.env with plays := s.env.plays.tail }).after
              (.audioPlay (fMod num s.cfg (fBuild s.tb)) .fail) })))
    ∧ (s.phase = .tRemove →
      ((nextRemove s).1 = .ok →
        sequencerStep num s = { s with
          entryV := false, outcome := .transmittedThisTick, phase := .tEnd
          env := ({ s.env with
            removes := s.env.removes.tail, outbox := s.env.outbox.filter fun e => decide (e.handle ≠ s.entryH) }).after
            (.outboxRemove s.entryH .ok) })
      ∧ ((nextRemove s).1 = .fail →
        sequencerStep num s = { s with
          entryV := false, rmfail := true, resCode := .removeFailure, outcome := .transmittedThisTick, phase := .tEnd
          env := ({ s.env with removes := s.env.removes.tail }).after (.outboxRemove s.entryH .fail) }))

/-- 44_scheduler R203, rows T_LISTEN, T_END and T_GAP; R202. RES_VAL at the end is the outcome also where RES_CODE is
not OK: log entry 16. -/
def Obligations.ListenEndAndGapStepsOfATick : Prop :=
  ∀ (num : Numerics) (s : State),
    (∀ n, s.phase = .tListen → n = samplesOf s.cfg s.cfg.tListenMs →
      (n = 0 → sequencerStep num s = { s with
          outcome := .listenedThisTick, phase := .tEnd
          env := { s.env with calls := .audioRecord 0 .ok :: s.env.calls } })
      ∧ (∀ heard, n ≠ 0 → (nextRecord s).1 = .ok heard →
        sequencerStep num s = { s with
          outcome := .listenedThisTick, phase := .tEnd
          env := ({ s.env with records := s.env.records.tail }).after (.audioRecord n .ok) })
      ∧ (n ≠ 0 → (nextRecord s).1 = .fail →
        sequencerStep num s = { s with
          faultCapture := true, phase := .halt, resCode := .captureFailure, resVal := 0#32
          env := ({ s.env with records := s.env.records.tail }).after (.audioRecord n .fail) }))
    ∧ (s.phase = .tEnd → sequencerStep num s = { s with
        resVal := (match s.outcome with
          | .none => 0#32
          | .transmittedThisTick => 1#32
          | .listenedThisTick => 2#32)
        phase := if s.loop = true then .tGap else .idle })
    ∧ (s.phase = .tGap → sequencerStep num s = { s with
        phase := .tCheck, env := { s.env with calls := .wait s.cfg.tTickMs :: s.env.calls } })

/-- 44_scheduler R205(e): a tick ends, whatever the devices answer; R201: without a fault it ends with exactly one of
the two outcomes, which RES_VAL shows (R199, R203), also beside a cause: log entry 16. -/
def Obligations.EveryTickEndsWithinFiveSteps : Prop :=
  ∀ (num : Numerics) (s : State), s.phase = .tCheck →
    ∃ k ≤ 5, (sequencerRun num k s).phase = .halt
      ∨ (((sequencerRun num k s).phase = if s.loop = true then .tGap else .idle)
        ∧ (((sequencerRun num k s).outcome = .transmittedThisTick ∧ (sequencerRun num k s).resVal = 1#32)
          ∨ ((sequencerRun num k s).outcome = .listenedThisTick ∧ (sequencerRun num k s).resVal = 2#32)))

/-- 44_scheduler R205 (a) and (b): only T_XMIT plays, only T_REMOVE removes, it removes the entry the tick holds, and
T_REMOVE is entered only by a step of T_XMIT whose playback, of the frame of the text in TB, returned ok. Under the
invariant T_XMIT is reached only on a Free reading of the same tick. -/
def Obligations.RemovalFollowsPlaybackOfTheSameTick : Prop :=
  ∀ (num : Numerics) (s t : State), t = sequencerStep num s →
    (played t.env.calls ≠ played s.env.calls → s.phase = .tXmit)
    ∧ (removals t.env.calls ≠ removals s.env.calls →
        s.phase = .tRemove ∧ removals t.env.calls = s.entryH :: removals s.env.calls)
    ∧ (t.env.outbox ≠ s.env.outbox → s.phase = .tRemove)
    ∧ (t.phase = .tRemove → s.phase = .tXmit ∧ t.entryH = s.entryH ∧ t.tb = s.tb
        ∧ t.env.calls = .audioPlay (fMod num s.cfg (fBuild s.tb)) .ok :: s.env.calls)
    ∧ (CoreInv s → s.phase = .tXmit → s.entryV = true ∧ s.chanV = true ∧ s.chan = .free)

/-- 44_scheduler R205 (c), R199, 43_channelsensor R180: a tick that finds an entry and hears at most NOISE_BITS bits
sends it and deletes it, and nothing else leaves the outbox. That every entry of its handle goes is log entry 17. -/
def Obligations.FreeTickSendsAndDeletes : Prop :=
  ∀ (num : Numerics) (s : State) (k n : Nat) (e : Entry) (heard : List Sample) (fs : List FirstReply)
    (rs : List RecordReply) (ps ms : List Reply),
    s.phase = .tCheck → s.loop = false → s.env.firsts = .pick k :: fs → s.env.outbox[k]? = some e →
    s.env.records = .ok heard :: rs → s.env.plays = .ok :: ps → s.env.removes = .ok :: ms →
    n = samplesOf s.cfg s.cfg.tSenseMs → n ≠ 0 → heard.length = n →
    (fDemod num s.cfg heard).length ≤ s.cfg.noiseBits →
    fits s.cfg.tbCap e.text.length = true → fits s.cfg.sbCap n = true → fits s.cfg.bbCap (n / chunkLen s.cfg) = true →
    fits s.cfg.bbCap (fBuild e.text).length = true →
    fits s.cfg.sbCap (chunkLen s.cfg * (fBuild e.text).length) = true →
    sequencerRun num 5 s = { s with
      tb := e.text, bb := fBuild e.text, sb := fMod num s.cfg (fBuild e.text)
      entryV := false, entryH := e.handle, chanV := true, chan := .free, outcome := .transmittedThisTick
      resCode := .ok, resVal := 1#32, phase := .idle
      env := { s.env with
        firsts := fs, records := rs, plays := ps, removes := ms
        outbox := s.env.outbox.filter fun x => decide (x.handle ≠ e.handle)
        calls := .outboxRemove e.handle .ok :: .audioPlay (fMod num s.cfg (fBuild e.text)) .ok :: .audioRecord n .ok
          :: .outboxFirst (.some e.handle e.text) :: s.env.calls
        draws := s.env.draws + 4 } }

/-- 44_scheduler R205 (c) and (d), R199, 60_exceptions R234: a tick that finds an entry and hears more than NOISE_BITS
bits plays nothing, deletes nothing, listens, and reports ChannelBusyContention with ListenedThisTick; RES_VAL = 2
beside that cause is log entry 16. -/
def Obligations.BusyTickKeepsTheEntry : Prop :=
  ∀ (num : Numerics) (s : State) (k n l : Nat) (e : Entry) (heard other : List Sample) (fs : List FirstReply)
    (rs : List RecordReply),
    s.phase = .tCheck → s.loop = false → s.env.firsts = .pick k :: fs → s.env.outbox[k]? = some e →
    s.env.records = .ok heard :: .ok other :: rs →
    n = samplesOf s.cfg s.cfg.tSenseMs → n ≠ 0 → heard.length = n → l = samplesOf s.cfg s.cfg.tListenMs → l ≠ 0 →
    s.cfg.noiseBits < (fDemod num s.cfg heard).length →
    fits s.cfg.tbCap e.text.length = true → fits s.cfg.sbCap n = true → fits s.cfg.bbCap (n / chunkLen s.cfg) = true →
    sequencerRun num 4 s = { s with
      tb := e.text, bb := fDemod num s.cfg heard, sb := heard
      entryV := true, entryH := e.handle, chanV := true, chan := .busy, outcome := .listenedThisTick
      resCode := .channelBusyContention, resVal := 2#32, phase := .idle
      env := { s.env with
        firsts := fs, records := rs
        calls := .audioRecord l .ok :: .audioRecord n .ok :: .outboxFirst (.some e.handle e.text) :: s.env.calls
        draws := s.env.draws + 3 } }

/-- 10_state R39, 44_scheduler R204: what an earlier tick left in the buffers and in the per-tick and result registers
cannot influence a tick: from T_CHECK on, for ever, two runs that differ only there agree on the phase, on the tick's
own registers, on the sticky flags and on everything done at the interfaces. -/
def Obligations.LeftoversCannotInfluenceATick : Prop :=
  ∀ (num : Numerics) (s s' : State) (k : Nat), s.phase = .tCheck →
    s' = { s with
      tb := s'.tb, bb := s'.bb, sb := s'.sb, entryV := s'.entryV, entryH := s'.entryH, chanV := s'.chanV
      chan := s'.chan, outcome := s'.outcome, resCode := s'.resCode, resVal := s'.resVal } →
    let t := sequencerRun num (k + 1) s
    let t' := sequencerRun num (k + 1) s'
    t'.phase = t.phase ∧ t'.loop = t.loop ∧ t'.entryV = t.entryV ∧ (t.entryV = true → t'.entryH = t.entryH)
    ∧ t'.chanV = t.chanV ∧ t'.chan = t.chan ∧ t'.outcome = t.outcome ∧ t'.resCode = t.resCode ∧ t'.resVal = t.resVal
    ∧ SameSticky t t' ∧ t'.env = t.env
end

