-- ==== Sys2Proof/Laws/State.lean ====
section
/-! SUPPORT. One lemma per field per named update of State: what the update leaves in that field. -/

namespace Sys2Proof.Machine

variable (s : State)

/-! `State.setTb` -/

@[simp] theorem setTb_cfg (v : Text) : (s.setTb v).cfg = s.cfg := rfl
@[simp] theorem setTb_tb (v : Text) : (s.setTb v).tb = v := rfl
@[simp] theorem setTb_bb (v : Text) : (s.setTb v).bb = s.bb := rfl
@[simp] theorem setTb_sb (v : Text) : (s.setTb v).sb = s.sb := rfl
@[simp] theorem setTb_resCode (v : Text) : (s.setTb v).resCode = s.resCode := rfl
@[simp] theorem setTb_resVal (v : Text) : (s.setTb v).resVal = s.resVal := rfl
@[simp] theorem setTb_phase (v : Text) : (s.setTb v).phase = s.phase := rfl
@[simp] theorem setTb_loop (v : Text) : (s.setTb v).loop = s.loop := rfl
@[simp] theorem setTb_entryV (v : Text) : (s.setTb v).entryV = s.entryV := rfl
@[simp] theorem setTb_entryH (v : Text) : (s.setTb v).entryH = s.entryH := rfl
@[simp] theorem setTb_chanV (v : Text) : (s.setTb v).chanV = s.chanV := rfl
@[simp] theorem setTb_chan (v : Text) : (s.setTb v).chan = s.chan := rfl
@[simp] theorem setTb_outcome (v : Text) : (s.setTb v).outcome = s.outcome := rfl
@[simp] theorem setTb_rmfail (v : Text) : (s.setTb v).rmfail = s.rmfail := rfl
@[simp] theorem setTb_faultPlay (v : Text) : (s.setTb v).faultPlay = s.faultPlay := rfl
@[simp] theorem setTb_faultCapture (v : Text) : (s.setTb v).faultCapture = s.faultCapture := rfl
@[simp] theorem setTb_faultOutbox (v : Text) : (s.setTb v).faultOutbox = s.faultOutbox := rfl
@[simp] theorem setTb_faultOperand (v : Text) : (s.setTb v).faultOperand = s.faultOperand := rfl
@[simp] theorem setTb_env (v : Text) : (s.setTb v).env = s.env := rfl

/-! `State.setBb` -/

@[simp] theorem setBb_cfg (v : Bitstream) : (s.setBb v).cfg = s.cfg := rfl
@[simp] theorem setBb_tb (v : Bitstream) : (s.setBb v).tb = s.tb := rfl
@[simp] theorem setBb_bb (v : Bitstream) : (s.setBb v).bb = v := rfl
@[simp] theorem setBb_sb (v : Bitstream) : (s.setBb v).sb = s.sb := rfl
@[simp] theorem setBb_resCode (v : Bitstream) : (s.setBb v).resCode = s.resCode := rfl
@[simp] theorem setBb_resVal (v : Bitstream) : (s.setBb v).resVal = s.resVal := rfl
@[simp] theorem setBb_phase (v : Bitstream) : (s.setBb v).phase = s.phase := rfl
@[simp] theorem setBb_loop (v : Bitstream) : (s.setBb v).loop = s.loop := rfl
@[simp] theorem setBb_entryV (v : Bitstream) : (s.setBb v).entryV = s.entryV := rfl
@[simp] theorem setBb_entryH (v : Bitstream) : (s.setBb v).entryH = s.entryH := rfl
@[simp] theorem setBb_chanV (v : Bitstream) : (s.setBb v).chanV = s.chanV := rfl
@[simp] theorem setBb_chan (v : Bitstream) : (s.setBb v).chan = s.chan := rfl
@[simp] theorem setBb_outcome (v : Bitstream) : (s.setBb v).outcome = s.outcome := rfl
@[simp] theorem setBb_rmfail (v : Bitstream) : (s.setBb v).rmfail = s.rmfail := rfl
@[simp] theorem setBb_faultPlay (v : Bitstream) : (s.setBb v).faultPlay = s.faultPlay := rfl
@[simp] theorem setBb_faultCapture (v : Bitstream) : (s.setBb v).faultCapture = s.faultCapture := rfl
@[simp] theorem setBb_faultOutbox (v : Bitstream) : (s.setBb v).faultOutbox = s.faultOutbox := rfl
@[simp] theorem setBb_faultOperand (v : Bitstream) : (s.setBb v).faultOperand = s.faultOperand := rfl
@[simp] theorem setBb_env (v : Bitstream) : (s.setBb v).env = s.env := rfl

/-! `State.setSb` -/

@[simp] theorem setSb_cfg (v : List Sample) : (s.setSb v).cfg = s.cfg := rfl
@[simp] theorem setSb_tb (v : List Sample) : (s.setSb v).tb = s.tb := rfl
@[simp] theorem setSb_bb (v : List Sample) : (s.setSb v).bb = s.bb := rfl
@[simp] theorem setSb_sb (v : List Sample) : (s.setSb v).sb = v := rfl
@[simp] theorem setSb_resCode (v : List Sample) : (s.setSb v).resCode = s.resCode := rfl
@[simp] theorem setSb_resVal (v : List Sample) : (s.setSb v).resVal = s.resVal := rfl
@[simp] theorem setSb_phase (v : List Sample) : (s.setSb v).phase = s.phase := rfl
@[simp] theorem setSb_loop (v : List Sample) : (s.setSb v).loop = s.loop := rfl
@[simp] theorem setSb_entryV (v : List Sample) : (s.setSb v).entryV = s.entryV := rfl
@[simp] theorem setSb_entryH (v : List Sample) : (s.setSb v).entryH = s.entryH := rfl
@[simp] theorem setSb_chanV (v : List Sample) : (s.setSb v).chanV = s.chanV := rfl
@[simp] theorem setSb_chan (v : List Sample) : (s.setSb v).chan = s.chan := rfl
@[simp] theorem setSb_outcome (v : List Sample) : (s.setSb v).outcome = s.outcome := rfl
@[simp] theorem setSb_rmfail (v : List Sample) : (s.setSb v).rmfail = s.rmfail := rfl
@[simp] theorem setSb_faultPlay (v : List Sample) : (s.setSb v).faultPlay = s.faultPlay := rfl
@[simp] theorem setSb_faultCapture (v : List Sample) : (s.setSb v).faultCapture = s.faultCapture := rfl
@[simp] theorem setSb_faultOutbox (v : List Sample) : (s.setSb v).faultOutbox = s.faultOutbox := rfl
@[simp] theorem setSb_faultOperand (v : List Sample) : (s.setSb v).faultOperand = s.faultOperand := rfl
@[simp] theorem setSb_env (v : List Sample) : (s.setSb v).env = s.env := rfl

/-! `State.setRes` -/

@[simp] theorem setRes_cfg (code : Cause) (v : Word) : (s.setRes code v).cfg = s.cfg := rfl
@[simp] theorem setRes_tb (code : Cause) (v : Word) : (s.setRes code v).tb = s.tb := rfl
@[simp] theorem setRes_bb (code : Cause) (v : Word) : (s.setRes code v).bb = s.bb := rfl
@[simp] theorem setRes_sb (code : Cause) (v : Word) : (s.setRes code v).sb = s.sb := rfl
@[simp] theorem setRes_resCode (code : Cause) (v : Word) : (s.setRes code v).resCode = code := rfl
@[simp] theorem setRes_resVal (code : Cause) (v : Word) : (s.setRes code v).resVal = v := rfl
@[simp] theorem setRes_phase (code : Cause) (v : Word) : (s.setRes code v).phase = s.phase := rfl
@[simp] theorem setRes_loop (code : Cause) (v : Word) : (s.setRes code v).loop = s.loop := rfl
@[simp] theorem setRes_entryV (code : Cause) (v : Word) : (s.setRes code v).entryV = s.entryV := rfl
@[simp] theorem setRes_entryH (code : Cause) (v : Word) : (s.setRes code v).entryH = s.entryH := rfl
@[simp] theorem setRes_chanV (code : Cause) (v : Word) : (s.setRes code v).chanV = s.chanV := rfl
@[simp] theorem setRes_chan (code : Cause) (v : Word) : (s.setRes code v).chan = s.chan := rfl
@[simp] theorem setRes_outcome (code : Cause) (v : Word) : (s.setRes code v).outcome = s.outcome := rfl
@[simp] theorem setRes_rmfail (code : Cause) (v : Word) : (s.setRes code v).rmfail = s.rmfail := rfl
@[simp] theorem setRes_faultPlay (code : Cause) (v : Word) : (s.setRes code v).faultPlay = s.faultPlay := rfl
@[simp] theorem setRes_faultCapture (code : Cause) (v : Word) : (s.setRes code v).faultCapture = s.faultCapture := rfl
@[simp] theorem setRes_faultOutbox (code : Cause) (v : Word) : (s.setRes code v).faultOutbox = s.faultOutbox := rfl
@[simp] theorem setRes_faultOperand (code : Cause) (v : Word) : (s.setRes code v).faultOperand = s.faultOperand := rfl
@[simp] theorem setRes_env (code : Cause) (v : Word) : (s.setRes code v).env = s.env := rfl

/-! `State.setPhase` -/

@[simp] theorem setPhase_cfg (p : Phase) : (s.setPhase p).cfg = s.cfg := rfl
@[simp] theorem setPhase_tb (p : Phase) : (s.setPhase p).tb = s.tb := rfl
@[simp] theorem setPhase_bb (p : Phase) : (s.setPhase p).bb = s.bb := rfl
@[simp] theorem setPhase_sb (p : Phase) : (s.setPhase p).sb = s.sb := rfl
@[simp] theorem setPhase_resCode (p : Phase) : (s.setPhase p).resCode = s.resCode := rfl
@[simp] theorem setPhase_resVal (p : Phase) : (s.setPhase p).resVal = s.resVal := rfl
@[simp] theorem setPhase_phase (p : Phase) : (s.setPhase p).phase = p := rfl
@[simp] theorem setPhase_loop (p : Phase) : (s.setPhase p).loop = s.loop := rfl
@[simp] theorem setPhase_entryV (p : Phase) : (s.setPhase p).entryV = s.entryV := rfl
@[simp] theorem setPhase_entryH (p : Phase) : (s.setPhase p).entryH = s.entryH := rfl
@[simp] theorem setPhase_chanV (p : Phase) : (s.setPhase p).chanV = s.chanV := rfl
@[simp] theorem setPhase_chan (p : Phase) : (s.setPhase p).chan = s.chan := rfl
@[simp] theorem setPhase_outcome (p : Phase) : (s.setPhase p).outcome = s.outcome := rfl
@[simp] theorem setPhase_rmfail (p : Phase) : (s.setPhase p).rmfail = s.rmfail := rfl
@[simp] theorem setPhase_faultPlay (p : Phase) : (s.setPhase p).faultPlay = s.faultPlay := rfl
@[simp] theorem setPhase_faultCapture (p : Phase) : (s.setPhase p).faultCapture = s.faultCapture := rfl
@[simp] theorem setPhase_faultOutbox (p : Phase) : (s.setPhase p).faultOutbox = s.faultOutbox := rfl
@[simp] theorem setPhase_faultOperand (p : Phase) : (s.setPhase p).faultOperand = s.faultOperand := rfl
@[simp] theorem setPhase_env (p : Phase) : (s.setPhase p).env = s.env := rfl

/-! `State.setEntry` -/

@[simp] theorem setEntry_cfg (h : Handle) : (s.setEntry h).cfg = s.cfg := rfl
@[simp] theorem setEntry_tb (h : Handle) : (s.setEntry h).tb = s.tb := rfl
@[simp] theorem setEntry_bb (h : Handle) : (s.setEntry h).bb = s.bb := rfl
@[simp] theorem setEntry_sb (h : Handle) : (s.setEntry h).sb = s.sb := rfl
@[simp] theorem setEntry_resCode (h : Handle) : (s.setEntry h).resCode = s.resCode := rfl
@[simp] theorem setEntry_resVal (h : Handle) : (s.setEntry h).resVal = s.resVal := rfl
@[simp] theorem setEntry_phase (h : Handle) : (s.setEntry h).phase = s.phase := rfl
@[simp] theorem setEntry_loop (h : Handle) : (s.setEntry h).loop = s.loop := rfl
@[simp] theorem setEntry_entryV (h : Handle) : (s.setEntry h).entryV = true := rfl
@[simp] theorem setEntry_entryH (h : Handle) : (s.setEntry h).entryH = h := rfl
@[simp] theorem setEntry_chanV (h : Handle) : (s.setEntry h).chanV = s.chanV := rfl
@[simp] theorem setEntry_chan (h : Handle) : (s.setEntry h).chan = s.chan := rfl
@[simp] theorem setEntry_outcome (h : Handle) : (s.setEntry h).outcome = s.outcome := rfl
@[simp] theorem setEntry_rmfail (h : Handle) : (s.setEntry h).rmfail = s.rmfail := rfl
@[simp] theorem setEntry_faultPlay (h : Handle) : (s.setEntry h).faultPlay = s.faultPlay := rfl
@[simp] theorem setEntry_faultCapture (h : Handle) : (s.setEntry h).faultCapture = s.faultCapture := rfl
@[simp] theorem setEntry_faultOutbox (h : Handle) : (s.setEntry h).faultOutbox = s.faultOutbox := rfl
@[simp] theorem setEntry_faultOperand (h : Handle) : (s.setEntry h).faultOperand = s.faultOperand := rfl
@[simp] theorem setEntry_env (h : Handle) : (s.setEntry h).env = s.env := rfl

/-! `State.clearEntry` -/

@[simp] theorem clearEntry_cfg : s.clearEntry.cfg = s.cfg := rfl
@[simp] theorem clearEntry_tb : s.clearEntry.tb = s.tb := rfl
@[simp] theorem clearEntry_bb : s.clearEntry.bb = s.bb := rfl
@[simp] theorem clearEntry_sb : s.clearEntry.sb = s.sb := rfl
@[simp] theorem clearEntry_resCode : s.clearEntry.resCode = s.resCode := rfl
@[simp] theorem clearEntry_resVal : s.clearEntry.resVal = s.resVal := rfl
@[simp] theorem clearEntry_phase : s.clearEntry.phase = s.phase := rfl
@[simp] theorem clearEntry_loop : s.clearEntry.loop = s.loop := rfl
@[simp] theorem clearEntry_entryV : s.clearEntry.entryV = false := rfl
@[simp] theorem clearEntry_entryH : s.clearEntry.entryH = s.entryH := rfl
@[simp] theorem clearEntry_chanV : s.clearEntry.chanV = s.chanV := rfl
@[simp] theorem clearEntry_chan : s.clearEntry.chan = s.chan := rfl
@[simp] theorem clearEntry_outcome : s.clearEntry.outcome = s.outcome := rfl
@[simp] theorem clearEntry_rmfail : s.clearEntry.rmfail = s.rmfail := rfl
@[simp] theorem clearEntry_faultPlay : s.clearEntry.faultPlay = s.faultPlay := rfl
@[simp] theorem clearEntry_faultCapture : s.clearEntry.faultCapture = s.faultCapture := rfl
@[simp] theorem clearEntry_faultOutbox : s.clearEntry.faultOutbox = s.faultOutbox := rfl
@[simp] theorem clearEntry_faultOperand : s.clearEntry.faultOperand = s.faultOperand := rfl
@[simp] theorem clearEntry_env : s.clearEntry.env = s.env := rfl

/-! `State.logCall` -/

@[simp] theorem logCall_cfg (e : Event) : (s.logCall e).cfg = s.cfg := rfl
@[simp] theorem logCall_tb (e : Event) : (s.logCall e).tb = s.tb := rfl
@[simp] theorem logCall_bb (e : Event) : (s.logCall e).bb = s.bb := rfl
@[simp] theorem logCall_sb (e : Event) : (s.logCall e).sb = s.sb := rfl
@[simp] theorem logCall_resCode (e : Event) : (s.logCall e).resCode = s.resCode := rfl
@[simp] theorem logCall_resVal (e : Event) : (s.logCall e).resVal = s.resVal := rfl
@[simp] theorem logCall_phase (e : Event) : (s.logCall e).phase = s.phase := rfl
@[simp] theorem logCall_loop (e : Event) : (s.logCall e).loop = s.loop := rfl
@[simp] theorem logCall_entryV (e : Event) : (s.logCall e).entryV = s.entryV := rfl
@[simp] theorem logCall_entryH (e : Event) : (s.logCall e).entryH = s.entryH := rfl
@[simp] theorem logCall_chanV (e : Event) : (s.logCall e).chanV = s.chanV := rfl
@[simp] theorem logCall_chan (e : Event) : (s.logCall e).chan = s.chan := rfl
@[simp] theorem logCall_outcome (e : Event) : (s.logCall e).outcome = s.outcome := rfl
@[simp] theorem logCall_rmfail (e : Event) : (s.logCall e).rmfail = s.rmfail := rfl
@[simp] theorem logCall_faultPlay (e : Event) : (s.logCall e).faultPlay = s.faultPlay := rfl
@[simp] theorem logCall_faultCapture (e : Event) : (s.logCall e).faultCapture = s.faultCapture := rfl
@[simp] theorem logCall_faultOutbox (e : Event) : (s.logCall e).faultOutbox = s.faultOutbox := rfl
@[simp] theorem logCall_faultOperand (e : Event) : (s.logCall e).faultOperand = s.faultOperand := rfl
@[simp] theorem logCall_env (e : Event) : (s.logCall e).env = { s.env with calls := e :: s.env.calls } := rfl

/-! `State.deleteEntry` -/

@[simp] theorem deleteEntry_cfg (h : Handle) : (s.deleteEntry h).cfg = s.cfg := rfl
@[simp] theorem deleteEntry_tb (h : Handle) : (s.deleteEntry h).tb = s.tb := rfl
@[simp] theorem deleteEntry_bb (h : Handle) : (s.deleteEntry h).bb = s.bb := rfl
@[simp] theorem deleteEntry_sb (h : Handle) : (s.deleteEntry h).sb = s.sb := rfl
@[simp] theorem deleteEntry_resCode (h : Handle) : (s.deleteEntry h).resCode = s.resCode := rfl
@[simp] theorem deleteEntry_resVal (h : Handle) : (s.deleteEntry h).resVal = s.resVal := rfl
@[simp] theorem deleteEntry_phase (h : Handle) : (s.deleteEntry h).phase = s.phase := rfl
@[simp] theorem deleteEntry_loop (h : Handle) : (s.deleteEntry h).loop = s.loop := rfl
@[simp] theorem deleteEntry_entryV (h : Handle) : (s.deleteEntry h).entryV = s.entryV := rfl
@[simp] theorem deleteEntry_entryH (h : Handle) : (s.deleteEntry h).entryH = s.entryH := rfl
@[simp] theorem deleteEntry_chanV (h : Handle) : (s.deleteEntry h).chanV = s.chanV := rfl
@[simp] theorem deleteEntry_chan (h : Handle) : (s.deleteEntry h).chan = s.chan := rfl
@[simp] theorem deleteEntry_outcome (h : Handle) : (s.deleteEntry h).outcome = s.outcome := rfl
@[simp] theorem deleteEntry_rmfail (h : Handle) : (s.deleteEntry h).rmfail = s.rmfail := rfl
@[simp] theorem deleteEntry_faultPlay (h : Handle) : (s.deleteEntry h).faultPlay = s.faultPlay := rfl
@[simp] theorem deleteEntry_faultCapture (h : Handle) : (s.deleteEntry h).faultCapture = s.faultCapture := rfl
@[simp] theorem deleteEntry_faultOutbox (h : Handle) : (s.deleteEntry h).faultOutbox = s.faultOutbox := rfl
@[simp] theorem deleteEntry_faultOperand (h : Handle) : (s.deleteEntry h).faultOperand = s.faultOperand := rfl
@[simp] theorem deleteEntry_env (h : Handle) :
    (s.deleteEntry h).env = { s.env with outbox := withoutEntry h s.env.outbox } := rfl

/-! `State.countDraw` -/

@[simp] theorem countDraw_cfg : s.countDraw.cfg = s.cfg := rfl
@[simp] theorem countDraw_tb : s.countDraw.tb = s.tb := rfl
@[simp] theorem countDraw_bb : s.countDraw.bb = s.bb := rfl
@[simp] theorem countDraw_sb : s.countDraw.sb = s.sb := rfl
@[simp] theorem countDraw_resCode : s.countDraw.resCode = s.resCode := rfl
@[simp] theorem countDraw_resVal : s.countDraw.resVal = s.resVal := rfl
@[simp] theorem countDraw_phase : s.countDraw.phase = s.phase := rfl
@[simp] theorem countDraw_loop : s.countDraw.loop = s.loop := rfl
@[simp] theorem countDraw_entryV : s.countDraw.entryV = s.entryV := rfl
@[simp] theorem countDraw_entryH : s.countDraw.entryH = s.entryH := rfl
@[simp] theorem countDraw_chanV : s.countDraw.chanV = s.chanV := rfl
@[simp] theorem countDraw_chan : s.countDraw.chan = s.chan := rfl
@[simp] theorem countDraw_outcome : s.countDraw.outcome = s.outcome := rfl
@[simp] theorem countDraw_rmfail : s.countDraw.rmfail = s.rmfail := rfl
@[simp] theorem countDraw_faultPlay : s.countDraw.faultPlay = s.faultPlay := rfl
@[simp] theorem countDraw_faultCapture : s.countDraw.faultCapture = s.faultCapture := rfl
@[simp] theorem countDraw_faultOutbox : s.countDraw.faultOutbox = s.faultOutbox := rfl
@[simp] theorem countDraw_faultOperand : s.countDraw.faultOperand = s.faultOperand := rfl
@[simp] theorem countDraw_env : s.countDraw.env = { s.env with draws := s.env.draws + 1 } := rfl

/-! `State.popInput` -/

@[simp] theorem popInput_cfg : s.popInput.cfg = s.cfg := rfl
@[simp] theorem popInput_tb : s.popInput.tb = s.tb := rfl
@[simp] theorem popInput_bb : s.popInput.bb = s.bb := rfl
@[simp] theorem popInput_sb : s.popInput.sb = s.sb := rfl
@[simp] theorem popInput_resCode : s.popInput.resCode = s.resCode := rfl
@[simp] theorem popInput_resVal : s.popInput.resVal = s.resVal := rfl
@[simp] theorem popInput_phase : s.popInput.phase = s.phase := rfl
@[simp] theorem popInput_loop : s.popInput.loop = s.loop := rfl
@[simp] theorem popInput_entryV : s.popInput.entryV = s.entryV := rfl
@[simp] theorem popInput_entryH : s.popInput.entryH = s.entryH := rfl
@[simp] theorem popInput_chanV : s.popInput.chanV = s.chanV := rfl
@[simp] theorem popInput_chan : s.popInput.chan = s.chan := rfl
@[simp] theorem popInput_outcome : s.popInput.outcome = s.outcome := rfl
@[simp] theorem popInput_rmfail : s.popInput.rmfail = s.rmfail := rfl
@[simp] theorem popInput_faultPlay : s.popInput.faultPlay = s.faultPlay := rfl
@[simp] theorem popInput_faultCapture : s.popInput.faultCapture = s.faultCapture := rfl
@[simp] theorem popInput_faultOutbox : s.popInput.faultOutbox = s.faultOutbox := rfl
@[simp] theorem popInput_faultOperand : s.popInput.faultOperand = s.faultOperand := rfl
@[simp] theorem popInput_env : s.popInput.env = { s.env with inputs := s.env.inputs.tail } := rfl

end Sys2Proof.Machine
end

