-- ==== Sys2Proof/Laws/Ops.lean ====
section
/-! SUPPORT. What each shared operation can do, said once: accepting a command, refusing, faults, the answers of the
environment, the bodies that call a device. -/

namespace Sys2Proof.Machine

/-! ## Accepting a command -/

theorem whenIdle_idle {s : State} (h : s.phase = .idle) (op : State → State) : whenIdle s op = .next (op s) := by
  simp [whenIdle, h]

theorem whenIdle_busy {s : State} (h : s.phase ≠ .idle) (op : State → State) : whenIdle s op = .next (coreBusy s) := by
  simp [whenIdle, h]

/-- An accepted or discarded command always ends in a next state, one of these two. -/
theorem whenIdle_cases {s t : State} {op : State → State} (h : whenIdle s op = .next t) :
    (s.phase = .idle ∧ t = op s) ∨ (s.phase ≠ .idle ∧ t = coreBusy s) := by
  by_cases hp : s.phase = .idle
  · rw [whenIdle_idle hp] at h
    cases h
    exact .inl ⟨hp, rfl⟩
  · rw [whenIdle_busy hp] at h
    cases h
    exact .inr ⟨hp, rfl⟩

/-! ## Refusals and faults -/

@[simp] theorem refuse_eq (cause : Cause) (s : State) : refuse cause s = s.setRes cause 0#32 := rfl

theorem raiseFault_eq (flag : FaultFlag) (cause : Cause) (s : State) :
    raiseFault flag cause s =
      { s with
        resCode := cause
        resVal := 0#32
        phase := .halt
        faultPlay := s.faultPlay || decide (flag = .play)
        faultCapture := s.faultCapture || decide (flag = .capture)
        faultOutbox := s.faultOutbox || decide (flag = .outbox)
        faultOperand := s.faultOperand || decide (flag = .operand) } := by
  cases flag <;> simp [raiseFault, setFaultFlag, State.setRes, State.setPhase]

@[simp] theorem raiseFault_phase (flag : FaultFlag) (cause : Cause) (s : State) :
    (raiseFault flag cause s).phase = .halt := rfl

@[simp] theorem anyFault_raiseFault (flag : FaultFlag) (cause : Cause) (s : State) :
    anyFault (raiseFault flag cause s) = true := by
  cases flag <;> simp [raiseFault_eq, anyFault]

@[simp] theorem raiseFault_env (flag : FaultFlag) (cause : Cause) (s : State) :
    (raiseFault flag cause s).env = s.env := by rw [raiseFault_eq]

@[simp] theorem raiseFault_cfg (flag : FaultFlag) (cause : Cause) (s : State) :
    (raiseFault flag cause s).cfg = s.cfg := by rw [raiseFault_eq]

/-! ## The answers of the environment: only `env` changes, and of it only the answers and the counter -/

theorem nextRecord_pending {s : State} {r : RecordReply} {rest : List RecordReply} (h : s.env.records = r :: rest) :
    nextRecord s = (r, { s with env := { s.env with records := rest, draws := s.env.draws + 1 } }) := by
  simp [nextRecord, h]

theorem nextPlay_pending {s : State} {r : Reply} {rest : List Reply} (h : s.env.plays = r :: rest) :
    nextPlay s = (r, { s with env := { s.env with plays := rest, draws := s.env.draws + 1 } }) := by
  simp [nextPlay, h]

theorem nextFirst_pending {s : State} {r : FirstReply} {rest : List FirstReply} (h : s.env.firsts = r :: rest) :
    nextFirst s = (r, { s with env := { s.env with firsts := rest, draws := s.env.draws + 1 } }) := by
  simp [nextFirst, h]

theorem nextRemove_pending {s : State} {r : Reply} {rest : List Reply} (h : s.env.removes = r :: rest) :
    nextRemove s = (r, { s with env := { s.env with removes := rest, draws := s.env.draws + 1 } }) := by
  simp [nextRemove, h]

/-- Whatever the answer, only `env.records` and `env.draws` may differ afterwards. -/
theorem nextRecord_state (s : State) :
    ∃ rest, (nextRecord s).2 = { s with env := { s.env with records := rest, draws := s.env.draws + 1 } } := by
  cases h : s.env.records with
  | cons r rest => exact ⟨rest, by rw [nextRecord_pending h]⟩
  | nil => exact ⟨[], by simp [nextRecord, h]⟩

theorem nextPlay_state (s : State) :
    ∃ rest, (nextPlay s).2 = { s with env := { s.env with plays := rest, draws := s.env.draws + 1 } } := by
  cases h : s.env.plays with
  | cons r rest => exact ⟨rest, by rw [nextPlay_pending h]⟩
  | nil => exact ⟨[], by simp [nextPlay, h]⟩

theorem nextFirst_state (s : State) :
    ∃ rest, (nextFirst s).2 = { s with env := { s.env with firsts := rest, draws := s.env.draws + 1 } } := by
  cases h : s.env.firsts with
  | cons r rest => exact ⟨rest, by rw [nextFirst_pending h]⟩
  | nil => exact ⟨[], by simp [nextFirst, h]⟩

theorem nextRemove_state (s : State) :
    ∃ rest, (nextRemove s).2 = { s with env := { s.env with removes := rest, draws := s.env.draws + 1 } } := by
  cases h : s.env.removes with
  | cons r rest => exact ⟨rest, by rw [nextRemove_pending h]⟩
  | nil => exact ⟨[], by simp [nextRemove, h]⟩

/-! ## The external primitives -/

@[simp] theorem recording_length (n k : Nat) (heard : List Sample) : (recording n k heard).length = n := by
  simp [recording]
  omega

/-- A recording gives the answer's samples, as many as it has (20_memory R70). -/
theorem recording_take (n k : Nat) (heard : List Sample) : (recording n k heard).take heard.length = heard.take n := by
  rcases Nat.le_total heard.length n with h | h <;> simp [recording, List.take_take, h]

theorem recording_exact {n k : Nat} {heard : List Sample} (h : heard.length = n) : recording n k heard = heard := by
  subst h
  simp [recording]

/-- AudioRecord changes nothing of the core; a recording has exactly `n` samples (20_memory R70). -/
theorem audioRecord_cases (n : Nat) (s : State) :
    ∃ env, (audioRecord n s).2 = { s with env := env }
      ∧ ((∃ x, (audioRecord n s).1 = some x ∧ x.length = n) ∨ (audioRecord n s).1 = none)
      ∧ env.outbox = s.env.outbox ∧ env.inputs = s.env.inputs := by
  unfold audioRecord
  by_cases hn : n = 0
  · subst hn
    exact ⟨(s.logCall (.audioRecord 0 .ok)).env, rfl, by simp, rfl, rfl⟩
  · obtain ⟨rest, hr⟩ := nextRecord_state s
    simp only [hn, if_false]
    cases (nextRecord s).1 with
    | ok heard =>
      exact ⟨((nextRecord s).2.logCall (.audioRecord n .ok)).env, by simp [hr, State.logCall],
        .inl ⟨_, rfl, recording_length _ _ _⟩, by simp [hr], by simp [hr]⟩
    | fail =>
      exact ⟨((nextRecord s).2.logCall (.audioRecord n .fail)).env, by simp [hr, State.logCall], .inr rfl,
        by simp [hr], by simp [hr]⟩

/-- AudioPlay changes nothing of the core and leaves the outbox alone (20_memory R71). -/
theorem audioPlay_state (x : List Sample) (s : State) :
    ∃ env, (audioPlay x s).2 = { s with env := env } ∧ env.outbox = s.env.outbox ∧ env.inputs = s.env.inputs := by
  obtain ⟨rest, hr⟩ := nextPlay_state s
  exact ⟨(audioPlay x s).2.env, by simp [audioPlay, hr, State.logCall], by simp [audioPlay, hr],
    by simp [audioPlay, hr]⟩

/-- OutboxFirst changes nothing of the core and leaves the outbox alone (20_memory R72). -/
theorem outboxFirst_state (s : State) :
    ∃ env, (outboxFirst s).2 = { s with env := env } ∧ env.outbox = s.env.outbox ∧ env.inputs = s.env.inputs := by
  obtain ⟨rest, hr⟩ := nextFirst_state s
  exact ⟨(outboxFirst s).2.env, by simp [outboxFirst, hr, State.logCall], by simp [outboxFirst, hr],
    by simp [outboxFirst, hr]⟩

/-- OutboxRemove changes nothing of the core; only `ok` deletes, and only the entry named (20_memory R73). -/
theorem outboxRemove_state (h : Handle) (s : State) :
    ∃ env, (outboxRemove h s).2 = { s with env := env }
      ∧ env.outbox = (if (outboxRemove h s).1 = .ok then withoutEntry h s.env.outbox else s.env.outbox)
      ∧ env.inputs = s.env.inputs := by
  obtain ⟨rest, hr⟩ := nextRemove_state s
  unfold outboxRemove
  cases (nextRemove s).1 with
  | ok =>
    exact ⟨(((nextRemove s).2.deleteEntry h).logCall (.outboxRemove h .ok)).env,
      by simp [hr, State.logCall, State.deleteEntry], by simp [hr], by simp [hr]⟩
  | fail =>
    exact ⟨((nextRemove s).2.logCall (.outboxRemove h .fail)).env, by simp [hr, State.logCall], by simp [hr],
      by simp [hr]⟩

/-! ## The bodies that call a device -/

/-- What the recording body can do: `done` with a recording of samples(ms) samples in SB and its bits in BB, both
within capacity; `tooLarge` with nothing changed; `deviceFailed` with nothing of the core changed. -/
theorem captureBody_cases (num : Numerics) (ms : Nat) (s : State) :
    (∃ x env, captureBody num ms s = .done { s with sb := x, bb := fDemod num s.cfg x, env := env }
        ∧ x.length = samplesOf s.cfg ms ∧ fits s.cfg.sbCap x.length = true
        ∧ fits s.cfg.bbCap (x.length / chunkLen s.cfg) = true
        ∧ env.outbox = s.env.outbox ∧ env.inputs = s.env.inputs)
    ∨ captureBody num ms s = .tooLarge s
    ∨ (∃ env, captureBody num ms s = .deviceFailed { s with env := env }
        ∧ env.outbox = s.env.outbox ∧ env.inputs = s.env.inputs) := by
  by_cases hf : (fits s.cfg.sbCap (samplesOf s.cfg ms) && fits s.cfg.bbCap (samplesOf s.cfg ms / chunkLen s.cfg)) = true
  · obtain ⟨env, he, ha, ho, hi⟩ := audioRecord_cases (samplesOf s.cfg ms) s
    have hb := Bool.and_eq_true_iff.mp hf
    rcases hr : audioRecord (samplesOf s.cfg ms) s with ⟨a, t⟩
    rw [hr] at he ha
    simp only at he ha
    subst he
    rcases ha with ⟨x, rfl, hl⟩ | rfl
    · exact .inl ⟨x, env, by simp [captureBody, hf, hr, State.setSb, State.setBb], hl, hl ▸ hb.1, hl ▸ hb.2, ho, hi⟩
    · exact .inr (.inr ⟨env, by simp [captureBody, hf, hr], ho, hi⟩)
  · exact .inr (.inl (by simp [captureBody, hf]))

/-- What the body of RECV can do: as the recording body, and `tooLarge` with only the environment changed where the
payload does not fit TB (log entry 13). -/
theorem recvBody_cases (num : Numerics) (ms : Nat) (s : State) :
    (∃ x env, recvBody num ms s = .done { s with sb := x, bb := fDemod num s.cfg x, env := env }
        ∧ x.length = samplesOf s.cfg ms ∧ fits s.cfg.sbCap x.length = true
        ∧ fits s.cfg.bbCap (x.length / chunkLen s.cfg) = true
        ∧ fits s.cfg.tbCap (fParse (fDemod num s.cfg x)).payload.length = true
        ∧ env.outbox = s.env.outbox ∧ env.inputs = s.env.inputs)
    ∨ (∃ env, recvBody num ms s = .tooLarge { s with env := env }
        ∧ env.outbox = s.env.outbox ∧ env.inputs = s.env.inputs)
    ∨ (∃ env, recvBody num ms s = .deviceFailed { s with env := env }
        ∧ env.outbox = s.env.outbox ∧ env.inputs = s.env.inputs) := by
  rcases captureBody_cases num ms s with ⟨x, env, e, hl, hs, hb, ho, hi⟩ | e | ⟨env, e, ho, hi⟩
  · by_cases hf : fits s.cfg.tbCap (fParse (fDemod num s.cfg x)).payload.length = true
    · exact .inl ⟨x, env, by simp [recvBody, e, hf], hl, hs, hb, hf, ho, hi⟩
    · exact .inr (.inl ⟨env, by simp [recvBody, e, hf], ho, hi⟩)
  · exact .inr (.inl ⟨s.env, by simp [recvBody, e], rfl, rfl⟩)
  · exact .inr (.inr ⟨env, by simp [recvBody, e], ho, hi⟩)

/-- What the outbox body can do: an entry of the outbox found and taken over, no entry, a text too long, or a failed
listing; nothing else of the core changes. -/
theorem checkBody_cases (s : State) :
    (∃ h text env, checkBody s = .done { s with entryV := true, entryH := h, tb := text, env := env }
        ∧ fits s.cfg.tbCap text.length = true ∧ env.outbox = s.env.outbox ∧ env.inputs = s.env.inputs)
    ∨ (∃ env, checkBody s = .done { s with entryV := false, env := env }
        ∧ env.outbox = s.env.outbox ∧ env.inputs = s.env.inputs)
    ∨ (∃ env, checkBody s = .tooLarge { s with env := env }
        ∧ env.outbox = s.env.outbox ∧ env.inputs = s.env.inputs)
    ∨ (∃ env, checkBody s = .deviceFailed { s with env := env }
        ∧ env.outbox = s.env.outbox ∧ env.inputs = s.env.inputs) := by
  obtain ⟨env, he, ho, hi⟩ := outboxFirst_state s
  rcases hr : outboxFirst s with ⟨a, t⟩
  rw [hr] at he
  simp only at he
  subst he
  cases a with
  | none => exact .inr (.inl ⟨env, by simp [checkBody, hr, State.clearEntry], ho, hi⟩)
  | fail => exact .inr (.inr (.inr ⟨env, by simp [checkBody, hr], ho, hi⟩))
  | some h text =>
    by_cases hf : fits s.cfg.tbCap text.length = true
    · exact .inl ⟨h, text, env, by simp [checkBody, hr, hf, State.setEntry, State.setTb], hf, ho, hi⟩
    · exact .inr (.inr (.inl ⟨env, by simp [checkBody, hr, hf], ho, hi⟩))

/-- What the transmit body can do: the frame of TB in BB and its samples in SB, both within capacity, and the frame
played or its playback failed; or nothing at all. -/
theorem xmitBody_cases (num : Numerics) (s : State) :
    (∃ env, (xmitBody num s = .done { s with bb := fBuild s.tb, sb := fMod num s.cfg (fBuild s.tb), env := env }
          ∨ xmitBody num s = .deviceFailed { s with bb := fBuild s.tb, sb := fMod num s.cfg (fBuild s.tb), env := env })
        ∧ fits s.cfg.bbCap (fBuild s.tb).length = true
        ∧ fits s.cfg.sbCap (chunkLen s.cfg * (fBuild s.tb).length) = true
        ∧ env.outbox = s.env.outbox ∧ env.inputs = s.env.inputs)
    ∨ xmitBody num s = .tooLarge s := by
  by_cases hf : (fits s.cfg.bbCap (fBuild s.tb).length
      && fits s.cfg.sbCap (chunkLen s.cfg * (fBuild s.tb).length)) = true
  · have hb := Bool.and_eq_true_iff.mp hf
    obtain ⟨env, he, ho, hi⟩ :=
      audioPlay_state (fMod num s.cfg (fBuild s.tb)) ((s.setBb (fBuild s.tb)).setSb (fMod num s.cfg (fBuild s.tb)))
    rcases hr : audioPlay (fMod num s.cfg (fBuild s.tb)) ((s.setBb (fBuild s.tb)).setSb (fMod num s.cfg (fBuild s.tb)))
      with ⟨a, t⟩
    rw [hr] at he
    simp only at he
    subst he
    refine .inl ⟨env, ?_, hb.1, hb.2, ho, hi⟩
    cases a with
    | ok => exact .inl (by simp only [xmitBody, hf, hr, if_true]; rfl)
    | fail => exact .inr (by simp only [xmitBody, hf, hr, if_true]; rfl)
  · exact .inr (by simp [xmitBody, hf])

/-- What the listen body can do: nothing of the core changes, whether the device works or fails (44_scheduler R198). -/
theorem listenBody_cases (ms : Nat) (s : State) :
    ∃ env, (listenBody ms s = .done { s with env := env } ∨ listenBody ms s = .deviceFailed { s with env := env })
      ∧ env.outbox = s.env.outbox ∧ env.inputs = s.env.inputs := by
  obtain ⟨env, he, ha, ho, hi⟩ := audioRecord_cases (samplesOf s.cfg ms) s
  rcases hr : audioRecord (samplesOf s.cfg ms) s with ⟨a, t⟩
  rw [hr] at he ha
  simp only at he ha
  subst he
  refine ⟨env, ?_, ho, hi⟩
  rcases ha with ⟨x, rfl, -⟩ | rfl
  · exact .inl (by simp [listenBody, hr])
  · exact .inr (by simp [listenBody, hr])

/-- What a removal can do: ENTRY.V cleared, RMFAIL set exactly when the outbox failed, the outbox without the entry
exactly when it did not (44_scheduler R197). -/
theorem removeEntry_cases (s : State) :
    ∃ env, ((removeEntry s = (.ok, { s with entryV := false, env := env })
          ∧ env.outbox = withoutEntry s.entryH s.env.outbox)
        ∨ (removeEntry s = (.fail, { s with entryV := false, rmfail := true, env := env })
          ∧ env.outbox = s.env.outbox))
      ∧ env.inputs = s.env.inputs := by
  obtain ⟨env, he, ho, hi⟩ := outboxRemove_state s.entryH s
  rcases hr : outboxRemove s.entryH s with ⟨a, t⟩
  rw [hr] at he ho
  simp only at he ho
  subst he
  refine ⟨env, ?_, hi⟩
  cases a with
  | ok => exact .inl ⟨by simp [removeEntry, hr, State.clearEntry], by simpa using ho⟩
  | fail => exact .inr ⟨by simp [removeEntry, hr, State.clearEntry], by simpa using ho⟩

end Sys2Proof.Machine
end

