-- ==== Sys2Proof/Laws/Codec.lean ====
section
/-! SUPPORT. The small laws of the definitions of the codecs: lengths, what they do to `[]` and to `::`, capacities, the
fields of an encoded command word. -/

namespace Sys2Proof.Machine

/-! ## Capacities and numbers -/

@[simp] theorem fits_zero (cap : Option Nat) : fits cap 0 = true := by cases cap <;> simp [fits]

theorem fits_mono {cap : Option Nat} {a b : Nat} (hab : a ≤ b) (h : fits cap b = true) : fits cap a = true := by
  cases cap with
  | none => rfl
  | some k => simp [fits] at h ⊢; omega

theorem toWord_of_lt {n : Nat} (h : n < 4294967296) : toWord n = BitVec.ofNat 32 n := by simp [toWord, h]

/-! ## Slices and tones -/

@[simp] theorem chunks_length {α : Type} (n : Nat) (xs : List α) : (chunks n xs).length = xs.length / n := by
  simp [chunks]

theorem chunks_of_lt {α : Type} {n : Nat} {xs : List α} (h : xs.length < n) : chunks n xs = [] := by
  simp [chunks, Nat.div_eq_of_lt h]

/-- The first chunk of a sequence that begins with a whole one (20_memory R63). -/
theorem chunks_append {α : Type} {n : Nat} {x xs : List α} (hn : 0 < n) (hx : x.length = n) :
    chunks n (x ++ xs) = x :: chunks n xs := by
  have hd : (x ++ xs).length / n = xs.length / n + 1 := by
    rw [List.length_append, hx, Nat.add_comm, Nat.add_div_right _ hn]
  unfold chunks
  rw [hd, List.range_succ_eq_map, List.map_cons, List.map_map]
  congr 1
  · simp [← hx]
  · refine List.map_congr_left fun j _ => ?_
    simp only [Function.comp_apply]
    rw [show (j + 1) * n = x.length + j * n by rw [hx, Nat.add_mul]; omega, ← List.drop_drop, List.drop_left]

@[simp] theorem fEncbit_length (num : Numerics) (c : Cfg) (b : Bit) : (fEncbit num c b).length = chunkLen c := by
  simp [fEncbit]

@[simp] theorem fMod_nil (num : Numerics) (c : Cfg) : fMod num c [] = [] := rfl

@[simp] theorem fMod_cons (num : Numerics) (c : Cfg) (b : Bit) (bits : Bitstream) :
    fMod num c (b :: bits) = fEncbit num c b ++ fMod num c bits := by simp [fMod]

@[simp] theorem fMod_length (num : Numerics) (c : Cfg) (bits : Bitstream) :
    (fMod num c bits).length = chunkLen c * bits.length := by
  induction bits with
  | nil => simp
  | cons b bits ih => simp [ih, Nat.mul_add, Nat.add_comm]

/-- At most one bit a chunk (40_tonecodec R128). -/
theorem fDemod_length_le (num : Numerics) (c : Cfg) (x : List Sample) :
    (fDemod num c x).length ≤ x.length / chunkLen c := by
  refine (List.length_filterMap_le _ _).trans ?_
  simp

@[simp] theorem fDemod_nil (num : Numerics) (c : Cfg) : fDemod num c [] = [] := by
  simp [fDemod, chunks]

/-- F_DEMOD of a sequence that begins with a whole chunk (40_tonecodec R128, R129). -/
theorem fDemod_append {num : Numerics} {c : Cfg} {x : List Sample} (xs : List Sample) (hn : 0 < chunkLen c)
    (hx : x.length = chunkLen c) : fDemod num c (x ++ xs) = (fDecbit num c x).toList ++ fDemod num c xs := by
  simp only [fDemod, chunks_append hn hx, List.filterMap_cons]
  cases fDecbit num c x <;> rfl

/-! ## The machine's numerics -/

theorem toneRoundTrip_iff (num : Numerics) (c : Cfg) : toneRoundTrip num c = true ↔ ToneRoundTrip num c := by
  simp [toneRoundTrip, ToneRoundTrip]

/-- The band magnitudes of the numerics record that reads labels. -/
@[simp] theorem labelledNum_bandmag (c : Cfg) (amp : Rat) (g n fs : Nat) (rest : List Sample) (f : Nat) :
    labelledNum.bandmag c (.sine amp g n fs :: rest) f = if g = f then c.thresh + 1 else c.thresh := rfl

/-- The numerics record that reads labels has ToneRoundTrip wherever two tones can be told apart at all. -/
theorem toneRoundTrip_labelledNum {c : Cfg} (hn : 0 < chunkLen c) (hf : c.fMark ≠ c.fSpace) :
    ToneRoundTrip labelledNum c := by
  obtain ⟨n, hn⟩ := Nat.exists_eq_succ_of_ne_zero (Nat.pos_iff_ne_zero.mp hn)
  have head (b : Bit) : ∃ rest, fEncbit labelledNum c b = .sine toneAmp (toneFreq c b) 0 c.fs :: rest := by
    rw [fEncbit, hn, List.range_succ_eq_map]
    exact ⟨_, rfl⟩
  obtain ⟨r1, h1⟩ := head true
  obtain ⟨r0, h0⟩ := head false
  have up : c.thresh < c.thresh + 1 := lt_add_one _
  constructor
  · simp [h1, fDecbit, toneFreq, hf, decideBit, up]
  · simp [h0, fDecbit, toneFreq, Ne.symm hf, decideBit, up, not_lt_of_gt up]

/-- The machine's numerics has ToneRoundTrip under the construction values (log entry 3). -/
theorem toneRoundTrip_theNum : ToneRoundTrip theNum Cfg.reference := by
  unfold theNum
  split
  · exact (toneRoundTrip_iff _ _).mp ‹_›
  · exact toneRoundTrip_labelledNum (by decide) (by decide)

/-- A configuration is valid exactly when arithmetic finds it so and the machine's numerics has ToneRoundTrip under it
(00_scope R10). -/
theorem validCfg_iff (c : Cfg) : validCfg c = true ↔ arithmeticValid c = true ∧ ToneRoundTrip theNum c := by
  unfold validCfg
  simp only [Bool.and_eq_true, Bool.or_eq_true, decide_eq_true_eq, toneRoundTrip_iff]
  constructor
  · rintro ⟨ha, rfl | hr⟩
    · exact ⟨ha, toneRoundTrip_theNum⟩
    · exact ⟨ha, hr⟩
  · rintro ⟨ha, hr⟩
    exact ⟨ha, .inr hr⟩

/-! ## Bits, bytes, frames -/

@[simp] theorem byteBits_length (v : Byte) : (byteBits v).length = 8 := rfl

@[simp] theorem fUnpack_nil : fUnpack [] = [] := rfl

@[simp] theorem fUnpack_cons (v : Byte) (bytes : Text) : fUnpack (v :: bytes) = byteBits v ++ fUnpack bytes := by
  simp [fUnpack]

@[simp] theorem fUnpack_length (bytes : Text) : (fUnpack bytes).length = 8 * bytes.length := by
  induction bytes with
  | nil => rfl
  | cons v bytes ih => simp [ih]; omega

@[simp] theorem fPack_length (bits : Bitstream) : (fPack bits).length = bits.length / 8 := by simp [fPack]

theorem fRenc_length (a : Text) : (fRenc a).length = 4 * ((a.length + 2) / 3) := by
  induction a using fRenc.induct with
  | case1 => rfl
  | case2 x => simp [fRenc]
  | case3 x y => simp [fRenc]
  | case4 x y z rest ih => simp [fRenc, ih]; omega

theorem fBuild_length (text : Text) : (fBuild text).length = 16 + 32 * ((text.length + 3) / 3) := by
  simp [fBuild, payloadBytes, fRenc_length, syncword]
  omega

@[simp] theorem fCrc8_nil : fCrc8 [] = 0#8 := rfl

theorem fCrc8_append (a : Text) (b : Byte) : fCrc8 (a ++ [b]) = crcByte (fCrc8 a) b := by simp [fCrc8]

/-! ## The command word -/

@[simp] theorem opField_append (op : BitVec 8) (imm : BitVec 24) : opField (op ++ imm) = op := by
  apply BitVec.eq_of_getLsbD_eq
  intro i hi
  simp only [opField, BitVec.getLsbD_extractLsb', BitVec.getLsbD_append]
  rw [if_neg (by omega)]
  simp [hi]

@[simp] theorem immField_append (op : BitVec 8) (imm : BitVec 24) : immField (op ++ imm) = imm := by
  apply BitVec.eq_of_getLsbD_eq
  intro i hi
  simp only [immField, BitVec.getLsbD_extractLsb', BitVec.getLsbD_append]
  rw [if_pos (by omega)]
  simp [hi]

end Sys2Proof.Machine
end

