-- ==== Sys2Proof/Laws/PerInstr.lean ====
section
/-! SUPPORT. Per instruction: the two fields of its command word are the opcode of its row and its immediate (30_encoding
R94 to R96), and the immediate has no bit set that R95 says must be 0. -/

namespace Sys2Proof.Laws.EncodeFields

open Sys2Proof.Machine

/-- The bits of IMM an instruction may use (30_encoding R95). -/
def immWidth : Instr → Nat
  | .encbit _ => 1
  | .decideAct _ _ => 2
  | .sense _ | .listen _ | .recv _ => 24
  | .decbit | .mod | .demod | .unpack | .pack | .renc | .rdec | .crc8 | .fsync | .build | .parse | .classify
  | .chkout | .xmit | .remove | .tick | .run => 0

/-- OP and IMM of the encoded word, and IMM within its width. -/
def Statement (i : Instr) : Prop :=
  opField (encode i) = i.opcode ∧ immField (encode i) = i.imm ∧ i.imm.toNat < 2 ^ immWidth i

theorem encbit (b : Bit) : Statement (.encbit b) :=
  ⟨opField_append _ _, immField_append _ _, by cases b <;> decide⟩

theorem decbit : Statement .decbit :=
  ⟨opField_append _ _, immField_append _ _, by decide⟩

theorem mod : Statement .mod :=
  ⟨opField_append _ _, immField_append _ _, by decide⟩

theorem demod : Statement .demod :=
  ⟨opField_append _ _, immField_append _ _, by decide⟩

theorem unpack : Statement .unpack :=
  ⟨opField_append _ _, immField_append _ _, by decide⟩

theorem pack : Statement .pack :=
  ⟨opField_append _ _, immField_append _ _, by decide⟩

theorem renc : Statement .renc :=
  ⟨opField_append _ _, immField_append _ _, by decide⟩

theorem rdec : Statement .rdec :=
  ⟨opField_append _ _, immField_append _ _, by decide⟩

theorem crc8 : Statement .crc8 :=
  ⟨opField_append _ _, immField_append _ _, by decide⟩

theorem fsync : Statement .fsync :=
  ⟨opField_append _ _, immField_append _ _, by decide⟩

theorem build : Statement .build :=
  ⟨opField_append _ _, immField_append _ _, by decide⟩

theorem parse : Statement .parse :=
  ⟨opField_append _ _, immField_append _ _, by decide⟩

theorem classify : Statement .classify :=
  ⟨opField_append _ _, immField_append _ _, by decide⟩

theorem sense (ms : Nat) : Statement (.sense ms) :=
  ⟨opField_append _ _, immField_append _ _, BitVec.isLt _⟩

theorem decideAct (hasEntry : Bit) (chan : ChanState) : Statement (.decideAct hasEntry chan) :=
  ⟨opField_append _ _, immField_append _ _, by cases hasEntry <;> cases chan <;> decide⟩

theorem chkout : Statement .chkout :=
  ⟨opField_append _ _, immField_append _ _, by decide⟩

theorem xmit : Statement .xmit :=
  ⟨opField_append _ _, immField_append _ _, by decide⟩

theorem remove : Statement .remove :=
  ⟨opField_append _ _, immField_append _ _, by decide⟩

theorem listen (ms : Nat) : Statement (.listen ms) :=
  ⟨opField_append _ _, immField_append _ _, BitVec.isLt _⟩

theorem tick : Statement .tick :=
  ⟨opField_append _ _, immField_append _ _, by decide⟩

theorem run : Statement .run :=
  ⟨opField_append _ _, immField_append _ _, by decide⟩

theorem recv (ms : Nat) : Statement (.recv ms) :=
  ⟨opField_append _ _, immField_append _ _, BitVec.isLt _⟩

end Sys2Proof.Laws.EncodeFields
end

