-- ==== Sys2Proof/Tests/Slice0.lean ====
section
/-! SUPPORT. The model's own tests: expected results are transcribed from 95_test_vectors (V1 to V111, S1 to S7), from
the tables of 30_encoding and from the pseudocode of the rules. At the end, for every statement that has hypotheses, a
theorem `witness_<Name>` with concrete values that meet them. -/

namespace Sys2Proof.Tests

open Sys2Proof.Machine

/-! ## Helpers -/

/-- The last `w` binary digits of a number, most significant first. -/
def bitsOf (w n : Nat) : Bitstream := (List.range w).map fun i => n.testBit (w - 1 - i)

/-- The last `k` bytes of a number, most significant first. -/
def bytesOf (k n : Nat) : Text := (List.range k).map fun i => BitVec.ofNat 8 (n / 256 ^ (k - 1 - i))

/-- "HELLO". -/
def hello : Text := bytesOf 5 0x48454C4C4F

/-- "Hi". -/
def hi : Text := bytesOf 2 0x4869

/-- The frame of "HELLO" (V30). -/
def helloFrame : Bitstream := bitsOf 80 0xAAAA5345564D54453854

/-- TCFG-A (95_test_vectors, conventions): TCFG-B at 8000 Hz. -/
def tcfgA : Cfg := { Cfg.reference with fs := 8000 }

/-- One sample a chunk; not a valid configuration, for statements that ask for none. -/
def tiny : Cfg := { Cfg.reference with fs := 1000, tBitUs := 1000 }

/-- After reset, under TCFG-A. -/
def base : State := { State.reset with cfg := tcfgA }

/-- After reset, for tests of a step: under `Cfg.reference` the kernel knows the configuration valid. -/
def live : State := State.reset

/-- A state with pending inputs. -/
def withInputs (s : State) (is : List Input) : State := { s with env := { s.env with inputs := is } }

/-- One entry, "Hi", in the outbox, and every device answer given. -/
def oneEntry (records : List RecordReply) (plays removes : List Reply) : State :=
  { base with env := { base.env with
      firsts := [.pick 0], records := records, plays := plays, removes := removes, outbox := [⟨⟨1⟩, hi⟩] } }

/-- The state an outcome carries. -/
def after (o : Host.Outcome State Fault Refusal) : Option State :=
  match o with
  | .next t => some t
  | .fault _ => none
  | .refused _ => none

/-- The fault an outcome names. -/
def faultOf (o : Host.Outcome State Fault Refusal) : Option Fault :=
  match o with
  | .fault f => some f
  | .next _ => none
  | .refused _ => none

/-- The refusal an outcome names. -/
def refusalOf (o : Host.Outcome State Fault Refusal) : Option Refusal :=
  match o with
  | .refused r => some r
  | .next _ => none
  | .fault _ => none

/-- RES_CODE and RES_VAL after a command. -/
def result (i : Instr) (s : State) : Option (Cause × Word) := (after (exec i s)).map fun t => (t.resCode, t.resVal)

/-- A numerics whose tones are the exact ones and that hears nothing. -/
def deaf : Numerics where
  tone := referenceTone
  bandmag _ _ _ := 0

/-- One that finds every chunk loud and undecided: a tie above the threshold is 0 (40_tonecodec R124). -/
def loud : Numerics where
  tone := referenceTone
  bandmag _ _ _ := 5

/-- One whose band magnitudes are `m` and `s`, whatever is heard. -/
def constant (m s : Mag) : Numerics where
  tone := referenceTone
  bandmag c _ f := if f = c.fMark then m else s

/-! ## Well-formedness: every check, with a term it refuses -/

theorem test_sense_too_long : (Instr.sense 16777216).wellFormed = false ∧ (Instr.sense 16777215).wellFormed = true := by
  decide

theorem test_listen_too_long : (Instr.listen 16777216).wellFormed = false ∧ (Instr.listen 0).wellFormed = true := by
  decide

theorem test_recv_too_long : (Instr.recv 16777216).wellFormed = false ∧ (Instr.recv 1000).wellFormed = true := by
  decide

/-! ## Decoding, by words written out from 30_encoding R94 to R97 -/

theorem test_decode_tone_words :
    decode 0x01000001#32 = .ok (.encbit true) ∧ decode 0x01000000#32 = .ok (.encbit false)
    ∧ decode 0x02000000#32 = .ok .decbit ∧ decode 0x03000000#32 = .ok .mod ∧ decode 0x04000000#32 = .ok .demod := by
  decide

theorem test_decode_primitive_words :
    decode 0x10000000#32 = .ok .unpack ∧ decode 0x11000000#32 = .ok .pack ∧ decode 0x12000000#32 = .ok .renc
    ∧ decode 0x13000000#32 = .ok .rdec ∧ decode 0x14000000#32 = .ok .crc8 := by
  decide

theorem test_decode_frame_words :
    decode 0x18000000#32 = .ok .fsync ∧ decode 0x19000000#32 = .ok .build ∧ decode 0x1A000000#32 = .ok .parse := by
  decide

theorem test_decode_sensor_words :
    decode 0x20000000#32 = .ok .classify ∧ decode 0x210003E8#32 = .ok (.sense 1000) := by
  decide

theorem test_decode_scheduler_words :
    decode 0x30000000#32 = .ok (.decideAct false .free) ∧ decode 0x30000001#32 = .ok (.decideAct true .free)
    ∧ decode 0x30000002#32 = .ok (.decideAct false .busy) ∧ decode 0x30000003#32 = .ok (.decideAct true .busy)
    ∧ decode 0x31000000#32 = .ok .chkout ∧ decode 0x32000000#32 = .ok .xmit ∧ decode 0x33000000#32 = .ok .remove
    ∧ decode 0x34001388#32 = .ok (.listen 5000) ∧ decode 0x35000000#32 = .ok .tick
    ∧ decode 0x36000000#32 = .ok .run := by
  decide

theorem test_decode_standalone_word : decode 0x400003E8#32 = .ok (.recv 1000) := by decide

/-- V28, V60, V84. -/
theorem test_decode_illegal_words :
    decode 0x00000000#32 = .error (.unassignedOpcode 0x00#8) ∧ decode 0x05000000#32 = .error (.unassignedOpcode 0x05#8)
    ∧ decode 0x41000000#32 = .error (.unassignedOpcode 0x41#8)
    ∧ decode 0xFF000000#32 = .error (.unassignedOpcode 0xFF#8)
    ∧ decode 0x19000001#32 = .error (.reservedImmediate 0x19#8)
    ∧ decode 0x01000002#32 = .error (.reservedImmediate 0x01#8)
    ∧ decode 0x30000004#32 = .error (.reservedImmediate 0x30#8) := by
  decide

/-- The textual form of 30_encoding R100. -/
theorem test_text_form :
    (Instr.sense 1000).text = "SENSE 1000" ∧ (Instr.decideAct true .busy).text = "DECIDE 1 1"
    ∧ (Instr.encbit true).text = "ENCBIT 1" ∧ Instr.build.text = "BUILD" := by
  decide +kernel

/-! ## The derived parameters and windows of the two test configurations -/

theorem test_parameters_of_test_configurations :
    chunkLen tcfgA = 80 ∧ chunkLen Cfg.reference = 441 ∧ samplesOf tcfgA 1005 = 8040
    ∧ samplesOf Cfg.reference 5000 = 220500
    ∧ window tcfgA 2000 80 = [19, 20, 21] ∧ window tcfgA 1000 80 = [9, 10, 11]
    ∧ window tcfgA 2000 40 = [10] ∧ window tcfgA 2000 7 = [] ∧ window tcfgA 1000 7 = [1] := by
  decide +kernel

/-! ## ToneCodec -/

/-- V1. -/
theorem test_encbit_mark :
    (fun t => (t.sb.length, t.sb[79]?, t.resCode)) (encbitOp deaf true base)
      = (80, some (.sine (mkRat 1 2) 2000 79 8000), .ok) := by
  decide +kernel

/-- V29. -/
theorem test_encbit_capacity :
    after (exec (.encbit true) { base with cfg := { tcfgA with sbCap := some 79 }, sb := [.rat 1] })
      = some { base with cfg := { tcfgA with sbCap := some 79 }, sb := [.rat 1], resCode := .badOperand } := by
  decide +kernel

/-- V21. -/
theorem test_decbit_bad_chunks :
    result .decbit base = some (.badOperand, 0#32)
    ∧ result .decbit { base with sb := [.rat 0] } = some (.badOperand, 0#32)
    ∧ result .decbit { base with sb := List.replicate 7 (.rat 0) } = some (.badOperand, 0#32) := by
  decide +kernel

/-- V3 to V13: the band magnitudes these rows give, and their results. -/
theorem test_decbit_decisions :
    decideBit (mkRat 20 3) 0 1 = some true ∧ decideBit 0 (mkRat 20 3) 1 = some false ∧ decideBit 0 0 1 = none
    ∧ decideBit (mkRat 20 3) (mkRat 20 3) 1 = some false ∧ decideBit (mkRat 20 3) (mkRat 10 3) 1 = some true
    ∧ decideBit (mkRat 10 3) (mkRat 20 3) 1 = some false ∧ decideBit (mkRat 4 3) 0 1 = some true
    ∧ decideBit (mkRat 2 3) 0 1 = none ∧ decideBit 1 0 1 = none ∧ decideBit (mkRat 4 5) (mkRat 2 5) 1 = none := by
  decide +kernel

/-- V22, V23. -/
theorem test_mod_two_bits :
    (fun t => (t.sb.length, t.sb[79]?, t.sb[80]?)) (modOp deaf { base with bb := [true, false] })
      = (160, some (.sine (mkRat 1 2) 2000 79 8000), some (.sine (mkRat 1 2) 1000 0 8000))
    ∧ (after (exec .mod { base with sb := [.rat 1] })).map (fun t => t.sb) = some [] := by
  decide +kernel

/-- V26. -/
theorem test_demod_short :
    (after (exec .demod { base with sb := List.replicate 79 (.rat 1), bb := [true] })).map (fun t => (t.bb, t.resCode))
      = some ([], .ok) := by
  decide +kernel

/-- V24, V25, with a numerics that tells the two tones and silence apart. -/
theorem test_demod_drops_silence :
    fDemod labelledNum tcfgA (fMod labelledNum tcfgA [true, false, true, true]) = [true, false, true, true]
    ∧ fDemod labelledNum tcfgA (fEncbit labelledNum tcfgA true ++ List.replicate 80 (.rat 0)
        ++ fEncbit labelledNum tcfgA false ++ List.replicate 40 (.rat 0)) = [true, false] := by
  decide +kernel

/-! ## Frame primitives -/

/-- V100, V101. -/
theorem test_unpack :
    (after (exec .unpack { base with tb := bytesOf 2 0x5345 })).map (fun t => t.bb)
      = some (bitsOf 16 0b0101001101000101)
    ∧ fUnpack (bytesOf 2 0x8001) = bitsOf 16 0b1000000000000001 := by
  decide +kernel

/-- V103, V104. -/
theorem test_pack :
    (after (exec .pack { base with bb := bitsOf 18 0b010100110100010101 })).map (fun t => t.tb)
      = some (bytesOf 2 0x5345)
    ∧ fPack (bitsOf 7 0b1010101) = [] := by
  decide +kernel

/-- V106. -/
theorem test_renc :
    (after (exec .renc { base with tb := hello })).map (fun t => t.tb) = some (bytesOf 8 0x5345564D5445383D)
    ∧ fRenc [0xFF#8] = bytesOf 4 0x2F773D3D ∧ fRenc (bytesOf 3 0x486987) = bytesOf 4 0x53476D48 := by
  decide +kernel

/-- V107. -/
theorem test_rdec :
    (after (exec .rdec { base with tb := bytesOf 8 0x5345564D54453854 })).map (fun t => (t.tb, t.resCode))
      = some (bytesOf 6 0x48454C4C4F13, .ok) := by
  decide +kernel

/-- V108: pad bits not zero, length 3, a space, no data, one data character, padding inside, a byte of 0x80 or more. -/
theorem test_rdec_strict :
    after (exec .rdec { base with tb := bytesOf 4 0x51523D3D })
      = some { base with tb := bytesOf 4 0x51523D3D, resCode := .malformedEncoding }
    ∧ fRdec (bytesOf 3 0x51513D) = none ∧ fRdec (bytesOf 4 0x51513D20) = none ∧ fRdec (bytesOf 4 0x3D3D3D3D) = none
    ∧ fRdec (bytesOf 4 0x513D3D3D) = none ∧ fRdec (bytesOf 8 0x51513D3D51513D3D) = none
    ∧ fRdec (bytesOf 4 0xD345564D) = none := by
  decide +kernel

/-- V109. -/
theorem test_crc8 :
    result .crc8 { base with tb := bytesOf 9 0x313233343536373839 } = some (.ok, 0xF4#32)
    ∧ fCrc8 [0x80#8] = 0x89#8 ∧ fCrc8 [0xFF#8] = 0xF3#8 ∧ fCrc8 (bytesOf 8 0x5345564D5445383D) = 0x13#8 := by
  decide +kernel

/-! ## FrameCodec -/

/-- V31. -/
theorem test_fsync :
    result .fsync { base with bb := bitsOf 22 0b0011010101010101010011 } = some (.ok, 3#32)
    ∧ result .fsync { base with bb := bitsOf 15 0b101010101010101 } = some (.syncNotFound, 0#32) := by
  decide +kernel

/-- V30. -/
theorem test_build :
    (after (exec .build { base with tb := hello })).map (fun t => t.bb) = some helloFrame
    ∧ fBuild [] = bitsOf 48 0xAAAA41413D3D ∧ fBuild (bytesOf 2 0x017F) = bitsOf 48 0xAAAA41583861 := by
  decide +kernel

/-- V47. -/
theorem test_build_capacity :
    after (exec .build { base with cfg := { tcfgA with bbCap := some 79 }, tb := hello })
      = some { base with cfg := { tcfgA with bbCap := some 79 }, tb := hello, resCode := .badOperand } := by
  decide +kernel

/-- V32, V42 rows 79, 18 and 19, V34, V35. -/
theorem test_parse :
    fParse helloFrame = .ok hello ∧ fParse (bitsOf 80 0xAAAA5345564D54453855) = .crcMismatch hello
    ∧ fParse (bitsOf 80 0xAAAA7345564D54453854) = .malformedEncoding
    ∧ fParse (bitsOf 80 0xAAAA4345564D54453854) = .crcMismatch (bytesOf 5 0x08454C4C4F)
    ∧ fParse syncword = .malformedEncoding ∧ fParse (bitsOf 48 0xAAAA79454637) = .malformedEncoding
    ∧ fParse (bitsOf 48 0xAAAA51513D3D) = .crcMismatch [] := by
  decide +kernel

/-- V36, V37, V41, and V33 through the instruction. -/
theorem test_parse_surroundings :
    fParse (bitsOf 7 0b0110111 ++ helloFrame) = .ok hello ∧ fParse (bitsOf 2 0b10 ++ helloFrame) = .malformedEncoding
    ∧ fParse (bitsOf 96 0xAAAA54307472AAAA53476D48) = .malformedEncoding
    ∧ after (exec .parse { base with bb := helloFrame.tail, tb := hello })
      = some { base with bb := helloFrame.tail, tb := [], resCode := .syncNotFound } := by
  decide +kernel

/-! ## ChannelSensor -/

/-- V52. -/
theorem test_classify :
    result .classify { base with bb := List.replicate 20 false } = some (.ok, 0#32)
    ∧ result .classify { base with bb := List.replicate 21 false } = some (.ok, 1#32) := by
  decide +kernel

/-- V54, V57. -/
theorem test_sense_nothing :
    result (.sense 0) { base with bb := [true] } = some (.ok, 0#32)
    ∧ after (exec (.sense 1000) { base with cfg := { tcfgA with sbCap := some 7999 } })
      = some { base with cfg := { tcfgA with sbCap := some 7999 }, resCode := .badOperand } := by
  decide +kernel

/-- V58. -/
theorem test_sense_failure :
    (after (exec (.sense 1000) (oneEntry [.fail] [] []))).map (fun t => (t.faultCapture, t.resCode, t.phase))
      = some (true, .captureFailure, .halt) := by
  decide +kernel

/-! ## Scheduler -/

/-- V60. -/
theorem test_decide :
    result (.decideAct false .free) base = some (.ok, 0#32) ∧ result (.decideAct true .free) base = some (.ok, 1#32)
    ∧ result (.decideAct false .busy) base = some (.ok, 0#32)
    ∧ result (.decideAct true .busy) base = some (.ok, 0#32) := by
  decide +kernel

/-- V70: an entry with text "Hi", and no entry. -/
theorem test_chkout :
    (after (exec .chkout (oneEntry [] [] []))).map (fun t => (t.entryV, t.entryH, t.tb, t.resVal))
      = some (true, ⟨1⟩, hi, 1#32)
    ∧ (after (exec .chkout { base with tb := hello, env := { base.env with firsts := [.pick 0] } })).map
        (fun t => (t.entryV, t.tb, t.resVal)) = some (false, hello, 0#32) := by
  decide +kernel

/-- V73. -/
theorem test_xmit_empty_text :
    (after (exec .xmit (oneEntry [] [.ok] []))).map (fun t => (t.bb, t.sb.length, t.resCode))
      = some (bitsOf 48 0xAAAA41413D3D, 3840, .ok) := by
  decide +kernel

/-- V71, and the example of 44_scheduler R197. -/
theorem test_remove :
    after (exec .remove base) = some { base with resCode := .badOperand }
    ∧ (after (exec .remove { oneEntry [] [] [.ok] with entryV := true, entryH := ⟨1⟩ })).map
        (fun t => (t.env.outbox, t.entryV, t.resCode)) = some ([], false, .ok) := by
  decide +kernel

/-- V72. -/
theorem test_listen :
    (after (exec (.listen 5000) (oneEntry [.ok []] [] []))).map (fun t => (t.env.calls, t.sb, t.resCode))
      = some ([.audioRecord 40000 .ok], [], .ok) := by
  decide +kernel

/-- 44_scheduler R199, R200. -/
theorem test_tick_and_run :
    (after (exec .tick { base with loop := true })).map (fun t => (t.loop, t.phase)) = some (false, .tCheck)
    ∧ (after (exec .run base)).map (fun t => (t.loop, t.phase)) = some (true, .tCheck) := by
  decide +kernel

/-- V66: STATUS = 0x0000200F. -/
theorem test_check_failure :
    statusWord (tCheck { base with env := { base.env with firsts := [.fail] } }) = 0x0000200F#32 := by
  decide +kernel

/-- V67: STATUS = 0x0000400F. -/
theorem test_check_text_too_long :
    statusWord (tCheck { oneEntry [] [] [] with cfg := { tcfgA with tbCap := some 1 } }) = 0x0000400F#32 := by
  decide +kernel

/-- The Busy step of V62 at the boundary of V51, 21 decoded chunks, with the flags it leaves. -/
theorem test_sense_busy :
    (fun t => (t.phase, statusWord t))
      (tSense loud { oneEntry [.ok (List.replicate 1680 (.rat 0))] [] [] with
        cfg := { tcfgA with tSenseMs := 210 }, phase := .tSense, entryV := true })
      = (.tListen, 0x000000E5#32) := by
  decide +kernel

/-- The playback failure of V65: STATUS = 0x0000086F. -/
theorem test_xmit_failure :
    statusWord (tXmit deaf { oneEntry [] [.fail] [] with phase := .tXmit, entryV := true, chanV := true, tb := hi })
      = 0x0000086F#32 := by
  decide +kernel

/-- The removal failure of V64, and the end of the tick: STATUS = 0x00000540, RES_VAL = 1, RES_CODE = 8. -/
theorem test_removal_failure :
    (tEnd (tRemove { oneEntry [] [] [.fail] with phase := .tRemove, entryV := true, chanV := true })).resVal = 1#32
    ∧ statusWord (tEnd (tRemove { oneEntry [] [] [.fail] with phase := .tRemove, entryV := true, chanV := true }))
      = 0x00000540#32 := by
  decide +kernel

/-! ## Standalone receive, refusals, host -/

/-- V80 at one sample a chunk, on a numerics that tells the two tones and silence apart. -/
theorem test_recv_frame :
    (fun t => (t.tb, t.bb, t.resCode))
      (recvOp labelledNum 100 { oneEntry [.ok (List.replicate 10 (.rat 0) ++ fMod labelledNum tiny helloFrame
        ++ List.replicate 10 (.rat 0))] [] [] with cfg := tiny })
      = (hello, helloFrame, .ok) := by
  decide +kernel

/-- The payload of V80 where TB_CAP is 4 (10_state R25): BadOperand, no buffer written. -/
theorem test_recv_payload_too_long :
    (fun t => (t.tb, t.bb, t.sb, t.resCode, t.phase, t.env.calls))
      (recvOp labelledNum 100 { oneEntry [.ok (List.replicate 10 (.rat 0) ++ fMod labelledNum tiny helloFrame
        ++ List.replicate 10 (.rat 0))] [] [] with cfg := { tiny with tbCap := some 4 }, tb := hi, bb := [true] })
      = (hi, [true], [], .badOperand, .idle, [.audioRecord 100 .ok]) := by
  decide +kernel

/-- V81 with a recording of no samples: `SyncNotFound`, TB empty. -/
theorem test_recv_silence :
    (after (exec (.recv 0) { base with tb := hello })).map (fun t => (t.tb, t.resCode)) = some ([], .syncNotFound) := by
  decide +kernel

/-- V84, V85. -/
theorem test_illegal_and_busy :
    after (step (withInputs live [.writeReg 0 0x19000001#32])) = some { live with resCode := .illegalOp }
    ∧ after (step (withInputs { live with phase := .tListen } [.writeReg 0 0x19000001#32]))
      = some { live with phase := .tListen, env := { live.env with calls := [.coreBusy] } } := by
  decide +kernel

/-- A step runs the word placed for it, from reset; in HALT nothing runs; an invalid configuration has no meaning. -/
theorem test_step :
    after (step (State.reset.withFetchWord 32 0x36000000)) = some { State.reset with loop := true, phase := .tCheck }
    ∧ faultOf (step { live with phase := .halt }) = some .halted
    ∧ refusalOf (step { live with cfg := { tcfgA with fMark := 1000 } }) = some .invalidConfiguration
    ∧ refusalOf (step (withInputs { live with phase := .tEnd } [.readTb])) = some .hostAccess := by
  decide +kernel

/-- Registers by number (10_state R34), and the markers of 60_exceptions R238. -/
theorem test_host_view :
    registerWord base 26 = 80#32 ∧ registerWord base 27 = 0xAAAA#32 ∧ registerWord base 28 = 7#32
    ∧ registerWord { base with tb := hello } 4 = 5#32 ∧ registerWord base 29 = 0#32
    ∧ hostMarker .crcMismatch = some "[CRC ERROR]" ∧ hostMarker .malformedEncoding = some "[Decode Error]" := by
  decide +kernel


/-! ## Witnesses: for every statement with hypotheses, values that meet them, clause by clause -/

theorem next_of_after {o : Host.Outcome State Fault Refusal} {t : State} (h : after o = some t) : o = .next t := by
  cases o <;> simp_all [after]

theorem next_of_isSome {o : Host.Outcome State Fault Refusal} (h : (after o).isSome = true) : ∃ t, o = .next t := by
  obtain ⟨t, ht⟩ := Option.isSome_iff_exists.mp h
  exact ⟨t, next_of_after ht⟩

/-- The core is valid and this is the one pending input. -/
def ready (s : State) (i : Input) : Bool := validCfg s.cfg && decide (s.env.inputs = [i])

/-- A state of a tick about to send, as `CoreInv` asks. -/
def sending : State :=
  { oneEntry [] [.ok] [] with
    cfg := Cfg.reference, phase := .tXmit, entryV := true, entryH := ⟨1⟩, chanV := true, tb := hi }

theorem sending_inv : CoreInv sending :=
  ⟨⟨by decide +kernel, by decide +kernel, by decide +kernel⟩, by decide +kernel, by decide, by decide,
    ⟨rfl, rfl, rfl, rfl⟩, ⟨rfl, rfl⟩⟩

theorem witness_DecodeOfEncodeIsTheInstruction :
    (Instr.sense 16777215).wellFormed = true ∧ (Instr.decideAct true .busy).wellFormed = true := by
  decide

theorem witness_EncodeOfDecodeIsTheWord : decode 0x21FFFFFF#32 = .ok (.sense 16777215) := by decide

theorem witness_IllegalCommandWordsAreRefused :
    ([0x00000000#32, 0x05000000#32, 0x0F000000#32, 0x15000000#32, 0x17000000#32, 0x1B000000#32, 0x1F000000#32,
      0x22000000#32, 0x2F000000#32, 0x37000000#32, 0x3F000000#32, 0x41000000#32, 0xFF000000#32].map
        fun w => (opField w).toNat)
      = [0x00, 0x05, 0x0F, 0x15, 0x17, 0x1B, 0x1F, 0x22, 0x2F, 0x37, 0x3F, 0x41, 0xFF]
    ∧ 2#24 >>> 1 ≠ 0 ∧ 4#24 >>> 2 ≠ 0 ∧ 1#24 >>> 0 ≠ 0
    ∧ ready (withInputs live [.writeReg 0 0#32]) (.writeReg 0 0#32) = true
    ∧ decode 0#32 = .error (.unassignedOpcode 0#8) := by
  decide +kernel

theorem witness_StepRunsTheDecodedCommand :
    ready (withInputs live [.writeReg 0 0x35000000#32]) (.writeReg 0 0x35000000#32) = true
    ∧ decode 0x35000000#32 = .ok .tick ∧ decode 0x35000001#32 = .error (.reservedImmediate 0x35#8) := by
  decide +kernel

theorem witness_StepWithoutInputIsTheSequencers :
    validCfg live.cfg = true ∧ live.env.inputs = [] ∧ live.phase = .idle ∧ sending.phase ≠ .halt
    ∧ sending.env.inputs = [] ∧ ({ live with phase := .halt } : State).phase = .halt := by
  decide +kernel

theorem witness_CommandsOutsideIdleAreDiscarded :
    ready (withInputs sending [.writeReg 0 0x35000000#32]) (.writeReg 0 0x35000000#32) = true
    ∧ sending.phase ≠ .idle ∧ live.resCode ≠ .coreBusy ∧ ∃ t, step live = .next t :=
  ⟨by decide +kernel, by decide, by decide, next_of_isSome (by decide +kernel)⟩

theorem witness_OnlyValidConfigurationsStep :
    validCfg { tcfgA with fMark := 1000 } = false ∧ validCfg Cfg.reference = true := by
  decide +kernel

theorem witness_ResetLeavesTheResetState :
    ready (withInputs { live with phase := .halt, faultPlay := true } [.reset]) .reset = true := by
  decide +kernel

theorem witness_StepKeepsTheInvariant : CoreInv sending ∧ ∃ t, step sending = .next t :=
  ⟨sending_inv, next_of_isSome (by decide +kernel)⟩

theorem witness_StepKeepsTheConfiguration : ∃ t, step sending = .next t := next_of_isSome (by decide +kernel)

theorem witness_OnlyResetLeavesHaltOrClearsAFlag :
    (fun s : State => s.phase = .halt ∧ s.faultPlay = true ∧ s.env.inputs.head? ≠ some .reset ∧ ∃ t, step s = .next t)
      (withInputs { live with phase := .halt, faultPlay := true } [.readReg 1]) :=
  ⟨rfl, rfl, by decide, next_of_isSome (by decide +kernel)⟩

theorem witness_CommandsLeaveTheTickRegisters : live.phase = .idle ∧ Instr.remove ≠ .tick ∧ Instr.remove ≠ .run := by
  decide

theorem witness_StatusGathersTheFlags :
    ready (withInputs sending [.readReg 1]) (.readReg 1) = true
    ∧ ready (withInputs sending [.writeReg 1 7#32]) (.writeReg 1 7#32) = true := by
  decide +kernel

theorem witness_RegisterMapByNumber :
    sending.tb.length < 2 ^ 32 ∧ sending.cfg.fs < 2 ^ 32 ∧ sending.entryV = true
    ∧ [8, 15, 29].map (registerWord sending) = [0#32, 0#32, 0#32]
    ∧ (8 ≤ 8 ∧ 8 ≤ 15) ∧ (8 ≤ 15 ∧ 15 ≤ 15) ∧ 29 ≤ 29 := by
  decide +kernel

theorem witness_RegisterAccessChangesNothing :
    ready (withInputs sending [.readReg 7]) (.readReg 7) = true ∧ sending.entryV = true
    ∧ ready (withInputs sending [.readReg 29]) (.readReg 29) = true
    ∧ ready (withInputs sending [.writeReg 16 0#32]) (.writeReg 16 0#32) = true := by
  decide +kernel

theorem witness_HostReachesBuffersOnlyInIdle :
    ready (withInputs live [.loadTb hello]) (.loadTb hello) = true
    ∧ ready (withInputs live [.loadBb helloFrame]) (.loadBb helloFrame) = true
    ∧ ready (withInputs live [.loadSb [.rat 0]]) (.loadSb [.rat 0]) = true
    ∧ ready (withInputs live [.readTb]) .readTb = true ∧ ready (withInputs live [.readBb]) .readBb = true
    ∧ ready (withInputs sending [.readSb]) .readSb = true := by
  decide +kernel

theorem witness_SendReceiveAndMarkers :
    validCfg live.cfg = true ∧ live.phase = .idle ∧ fits live.cfg.tbCap hello.length = true
    ∧ (withInputs live (sendInputs hello)).env.inputs = sendInputs hello ++ []
    ∧ 16777215 < 2 ^ 24 ∧ (withInputs live (receiveInputs 16777215)).env.inputs = receiveInputs 16777215 ++ []
    ∧ (after (step (withInputs live (receiveInputs 0)))).map (fun t => t.phase) = some .idle
    ∧ (after (step { withInputs live (receiveInputs 1) with
        env := { live.env with inputs := receiveInputs 1, records := [.fail] } })).map (fun t => t.phase)
      = some .halt := by
  decide +kernel

theorem witness_UnpackIsMostSignificantBitFirst : 15 < 8 * hi.length := by decide +kernel

theorem witness_PackInvertsUnpack : 9 < helloFrame.length / 8 := by decide +kernel

theorem witness_ReversibleEncodingIsPairedAndStrict :
    63 < 64 ∧ b64Val 0x2F#8 = some 63 ∧ 0x51#8 ∈ fRenc [0x41#8]
    ∧ fRdec (bytesOf 4 0x51513D3D) = some [0x41#8] ∧ fRdec (bytesOf 4 0x51523D3D) = none := by
  decide +kernel

theorem witness_CrcIsThePolynomialDivision : hello.length = (bytesOf 5 1).length ∧ 7 < 8 := by decide +kernel

theorem witness_FsyncFindsTheFirstOccurrence :
    fFsync (true :: syncword) = some 1 ∧ SyncAt (true :: syncword) 1 ∧ (bitsOf 15 0).length < 16 := by
  refine ⟨by decide +kernel, ⟨by decide, by decide⟩, by decide +kernel⟩

theorem witness_FrameLayoutIsBitExact : 15 < 16 ∧ 7 < 8 ∧ 3 < (fRenc ([] ++ [fCrc8 (fRenc [])])).length := by
  decide +kernel

theorem witness_FrameRoundTrip : Ascii hello ∧ Ascii [0x00#8, 0x7F#8] ∧ ¬ Ascii [0x80#8] := by
  unfold Ascii
  decide +kernel

theorem witness_BitsBeforeAFrame :
    Ascii hello ∧ fFsync ([false] ++ fBuild hello) = some 1 ∧ (∀ i, ¬ SyncAt [true, false] i)
    ∧ [true, false] <:+ [true, false] := by
  refine ⟨by unfold Ascii; decide +kernel, by decide +kernel, fun i h => ?_, List.suffix_refl _⟩
  have := h.1
  simp at this

theorem witness_BitsAfterAFrame :
    Ascii hello ∧ (bitsOf 7 5).length ≤ 7 ∧ (bitsOf 8 0).length / 8 % 4 ≠ 0
    ∧ ∃ b ∈ fPack (bitsOf 32 0x41414120), b64Val b = none ∧ b ≠ b64Pad := by
  unfold Ascii
  decide +kernel

theorem witness_ToneSamplesAreTheHalfAmplitudeSine :
    79 < chunkLen tcfgA ∧ (fEncbit deaf tcfgA true)[0]? = some (.sine (mkRat 1 2) 2000 0 8000)
    ∧ (∀ f n, sampleValue (deaf.tone tcfgA f n) = exactTone tcfgA f n) ∧ ∃ x, x ∈ (exactEncbit tcfgA true)[0]? := by
  refine ⟨by decide +kernel, by decide +kernel, fun f n => rfl, ?_⟩
  simp [exactEncbit, show chunkLen tcfgA = 80 by decide +kernel]

/-- A band magnitude is 0 where the window is empty, and that of the one bin where a chunk has one sample. -/
theorem bandMagnitude_one (c : Cfg) (r : ℝ) (f : Nat) :
    bandMagnitude c [r] f = if window c f 1 = [0] then |r| else 0 := by
  have hw : window c f 1 = [0] ∨ window c f 1 = [] := by
    unfold window
    rw [show List.range' 0 (1 / 2 + 1) = [0] from rfl]
    cases h : inWindow c f 1 0 <;> simp [h]
  rcases hw with hw | hw <;> simp [bandMagnitude, hw, magnitude, chunkSpectrum]

/-- Every triple of values occurs for some numerics and configuration, so every row does; over the reals (1, 0), (0, 1)
and (0, 0) occur, and the rows are met with the thresholds -1, 0 and 1. -/
theorem witness_DecisionTableOfDecbit :
    (∀ m s t : Mag, ∃ (num : Numerics) (c : Cfg), ∀ x,
      num.bandmag c x c.fMark = m ∧ num.bandmag c x c.fSpace = s ∧ c.thresh = t)
    ∧ (bandMagnitude { tcfgA with fMark := 0 } [1] 0 = 1 ∧ bandMagnitude { tcfgA with fMark := 0 } [1] 1000 = 0)
    ∧ (bandMagnitude { tcfgA with fSpace := 0 } [1] 2000 = 0 ∧ bandMagnitude { tcfgA with fSpace := 0 } [1] 0 = 1)
    ∧ (bandMagnitude tcfgA [1] 2000 = 0 ∧ bandMagnitude tcfgA [1] 1000 = 0) := by
  refine ⟨fun m s t => ⟨constant m s, { tcfgA with thresh := t }, fun _ => by simp [constant, tcfgA, Cfg.reference]⟩,
    ?_, ?_, ?_⟩ <;> simp only [bandMagnitude_one] <;> refine ⟨?_, ?_⟩
  · rw [if_pos (by decide +kernel)]; simp
  · rw [if_neg (by decide +kernel)]
  · rw [if_neg (by decide +kernel)]
  · rw [if_pos (by decide +kernel)]; simp
  · rw [if_neg (by decide +kernel)]
  · rw [if_neg (by decide +kernel)]

/-- A chunk that is read exactly; that a numerics exact in every chunk exists is a clause of the statement itself. -/
theorem witness_SomeNumericsIsTheExactOne : ReadsExactly deaf { tcfgA with thresh := 0 } [.rat 1] := by
  have h (f : Nat) (hf : f = 2000 ∨ f = 1000) :
      bandMagnitude { tcfgA with thresh := 0 } [sampleValue (.rat 1)] f = 0 := by
    rw [bandMagnitude_one, if_neg]
    rcases hf with rfl | rfl <;> decide +kernel
  unfold ReadsExactly
  rw [show ({ tcfgA with thresh := 0 } : Cfg).fMark = 2000 from rfl,
    show ({ tcfgA with thresh := 0 } : Cfg).fSpace = 1000 from rfl, List.map_singleton, h _ (.inl rfl),
    h _ (.inr rfl)]
  simp [deaf]

theorem witness_OnBinTonesRoundTrip : OnBinTones tcfgA 20 10 where
  sampled := by decide
  mark_on_bin := by decide +kernel
  space_on_bin := by decide +kernel
  distinct := by decide
  mark_low := by decide +kernel
  space_low := by decide +kernel
  apart := by decide
  threshold_mark := by decide +kernel
  threshold_space := by decide +kernel

theorem witness_DemodulationUndoesModulation : 1 ≤ chunkLen tcfgA ∧ ToneRoundTrip labelledNum tcfgA :=
  ⟨by decide +kernel, toneRoundTrip_labelledNum (by decide +kernel) (by decide)⟩

theorem witness_SensorIsBusyAboveTheNoiseFloor :
    (List.replicate 1679 (Sample.rat 0)).length / chunkLen tcfgA ≤ tcfgA.noiseBits := by
  decide +kernel

/-- A chunk of silence, the frame of "HELLO" and another chunk of silence, at one sample a chunk. -/
def aligned : List Sample :=
  [[Sample.rat 0]].flatten ++ fMod labelledNum tiny (fBuild hello) ++ [[Sample.rat 1]].flatten

theorem witness_AlignedFrameIsReceived :
    ToneRoundTrip labelledNum tiny ∧ 1 ≤ chunkLen tiny
    ∧ (∀ x ∈ [[Sample.rat 0]] ++ [[.rat 1]], x.length = chunkLen tiny ∧ fDecbit labelledNum tiny x = none)
    ∧ Ascii hello ∧ samplesOf tiny 82 = aligned.length
    ∧ (nextRecord { oneEntry [.ok aligned] [] [] with cfg := tiny }).1 = .ok aligned
    ∧ fits tiny.sbCap aligned.length = true ∧ fits tiny.bbCap (aligned.length / chunkLen tiny) = true
    ∧ fits tiny.tbCap hello.length = true := by
  refine ⟨toneRoundTrip_labelledNum (by decide +kernel) (by decide), by decide +kernel, by decide +kernel,
    by unfold Ascii; decide +kernel, by decide +kernel, rfl, by decide +kernel, by decide +kernel, by decide +kernel⟩

theorem witness_EncbitWritesTheTone :
    base.phase = .idle ∧ fits tcfgA.sbCap (chunkLen tcfgA) = true ∧ fits (some 79) (chunkLen tcfgA) = false := by
  decide +kernel

theorem witness_DecbitReadsTheWholeOfSb :
    base.sb = [] ∧ window tcfgA tcfgA.fMark 7 = [] ∧ window tcfgA tcfgA.fSpace 1 = []
    ∧ window tcfgA tcfgA.fMark 80 ≠ [] ∧ window tcfgA tcfgA.fSpace 80 ≠ [] := by
  decide +kernel

theorem witness_ModWritesOneTonePerBit :
    79 < chunkLen tcfgA ∧ base.phase = .idle ∧ fits tcfgA.sbCap (chunkLen tcfgA * 2) = true
    ∧ fits (some 159) (chunkLen tcfgA * 2) = false := by
  decide +kernel

theorem witness_DemodDropsUndeterminedChunks :
    (List.replicate 79 (Sample.rat 0)).length < chunkLen tcfgA ∧ base.phase = .idle
    ∧ fits tcfgA.bbCap (160 / chunkLen tcfgA) = true ∧ fits (some 1) (160 / chunkLen tcfgA) = false := by
  decide +kernel

theorem witness_FramePrimitiveOperations :
    base.phase = .idle ∧ fits (some 16) (8 * hi.length) = true ∧ fits (some 15) (8 * hi.length) = false
    ∧ fRdec (bytesOf 4 0x51523D3D) = none ∧ fRdec (bytesOf 4 0x51513D3D) = some [0x41#8] := by
  decide +kernel

theorem witness_FsyncBuildAndParse :
    base.phase = .idle ∧ fFsync base.bb = none ∧ fFsync helloFrame = some 0 ∧ 0 < 2 ^ 32
    ∧ fParse base.bb = .syncNotFound ∧ fParse syncword = .malformedEncoding ∧ fParse helloFrame = .ok hello
    ∧ fParse (bitsOf 80 0xAAAA5345564D54453855) = .crcMismatch hello ∧ fits (some 4) hello.length = false := by
  decide +kernel

theorem witness_ParseTestsInTheSourcesOrder :
    fFsync [] = none ∧ fRdec (fPack ((bitsOf 24 0xAAAA41).drop 16)) = none
    ∧ fRdec (fPack (syncword.drop 16)) = some []
    ∧ fRdec (fPack ((bitsOf 48 0xAAAA79454637).drop 16)) = some ([0xC8#8, 0x41#8] ++ [0x7B#8])
    ∧ 0x80 ≤ (0xC8#8).toNat
    ∧ fRdec (fPack ((bitsOf 48 0xAAAA51513D3D).drop 16)) = some ([] ++ [0x41#8]) ∧ fCrc8 (fRenc []) ≠ 0x41#8
    ∧ fRdec (fPack (helloFrame.drop 16)) = some (hello ++ [0x13#8]) ∧ fCrc8 (fRenc hello) = 0x13#8
    ∧ ∀ b ∈ hello, b.toNat < 0x80 := by
  decide +kernel

theorem witness_ClassifyAndDecideOnlyAnswer : base.phase = .idle := by decide

/-- What the recording statements ask, at a length the capacities allow and at one they do not. -/
theorem witness_SenseRecordsAndClassifies :
    base.phase = .idle ∧ 8000 = tcfgA.fs * 1000 / 1000 ∧ 0 = tcfgA.fs * 0 / 1000
    ∧ (fits (some 7999) 8000 && fits tcfgA.bbCap (8000 / chunkLen tcfgA)) = false
    ∧ (fits tcfgA.sbCap 8000 && fits tcfgA.bbCap (8000 / chunkLen tcfgA)) = true
    ∧ (nextRecord (oneEntry [.ok []] [] [])).1 = .ok [] ∧ (nextRecord (oneEntry [.fail] [] [])).1 = .fail
    ∧ (oneEntry [.ok []] [] []).phase = .idle := by
  decide +kernel

theorem witness_RecvRecordsAndParses :
    base.phase = .idle ∧ 8 = tcfgA.fs * 1 / 1000 ∧ 0 = tcfgA.fs * 0 / 1000
    ∧ (fits (some 7) 8 && fits tcfgA.bbCap (8 / chunkLen tcfgA)) = false
    ∧ (fits (some 8) 8 && fits tcfgA.bbCap (8 / chunkLen tcfgA)) = true
    ∧ (nextRecord (oneEntry [.ok []] [] [])).1 = .ok [] ∧ (nextRecord (oneEntry [.fail] [] [])).1 = .fail
    ∧ (oneEntry [.ok []] [] []).phase = .idle := by
  decide +kernel

theorem witness_ChkoutTakesOverAnEntry :
    (oneEntry [] [] []).phase = .idle ∧ (nextFirst (oneEntry [] [] [])).1 = .pick 0
    ∧ (oneEntry [] [] []).env.outbox[0 % (oneEntry [] [] []).env.outbox.length]? = some ⟨⟨1⟩, hi⟩
    ∧ base.env.outbox = []
    ∧ fits tcfgA.tbCap hi.length = true ∧ fits (some 1) hi.length = false := by
  decide +kernel

theorem witness_XmitPlaysTheFrameOfTb :
    (oneEntry [] [.ok] []).phase = .idle ∧ (nextPlay (oneEntry [] [.ok] [])).1 = .ok
    ∧ (nextPlay (oneEntry [] [.fail] [])).1 = .fail
    ∧ (fits tcfgA.bbCap (fBuild hi).length && fits tcfgA.sbCap (chunkLen tcfgA * (fBuild hi).length)) = true
    ∧ (fits tcfgA.bbCap (fBuild hi).length && fits (some 3839) (chunkLen tcfgA * (fBuild hi).length)) = false := by
  decide +kernel

theorem witness_RemoveDeletesTheEntry :
    base.phase = .idle ∧ base.entryV = false ∧ (nextRemove (oneEntry [] [] [.ok])).1 = .ok
    ∧ (nextRemove (oneEntry [] [] [.fail])).1 = .fail := by
  decide +kernel

theorem witness_ListenDiscardsTheSamples :
    base.phase = .idle ∧ 0 = tcfgA.fs * 0 / 1000 ∧ 40000 = tcfgA.fs * 5000 / 1000
    ∧ (nextRecord (oneEntry [.ok []] [] [])).1 = .ok [] ∧ (nextRecord (oneEntry [.fail] [] [])).1 = .fail := by
  decide +kernel

theorem witness_TickAndRunStartTheSequencer : base.phase = .idle := by decide

theorem witness_CheckStepOfATick :
    (nextFirst { oneEntry [] [] [] with phase := .tCheck }).1 = .pick 0
    ∧ (oneEntry [] [] []).env.outbox[0 % (oneEntry [] [] []).env.outbox.length]? = some ⟨⟨1⟩, hi⟩
    ∧ base.env.outbox = []
    ∧ fits tcfgA.tbCap hi.length = true ∧ fits (some 1) hi.length = false := by
  decide +kernel

theorem witness_SenseStepOfATick :
    1680 = samplesOf { tcfgA with tSenseMs := 210 } 210 ∧ 0 = samplesOf tcfgA 0
    ∧ (fits (some 1679) 1680 && fits tcfgA.bbCap (1680 / chunkLen tcfgA)) = false
    ∧ (fits tcfgA.sbCap 1680 && fits tcfgA.bbCap (1680 / chunkLen tcfgA)) = true
    ∧ (List.replicate 1680 (Sample.rat 0)).length = 1680
    ∧ (fDemod deaf tcfgA (List.replicate 1680 (.rat 0))).length ≤ tcfgA.noiseBits
    ∧ tcfgA.noiseBits < (fDemod loud tcfgA (List.replicate 1680 (.rat 0))).length := by
  decide +kernel

theorem witness_XmitAndRemoveStepsOfATick :
    sending.phase = .tXmit ∧ (nextPlay sending).1 = .ok
    ∧ (nextRemove { oneEntry [] [] [.fail] with phase := .tRemove }).1 = .fail
    ∧ (fits tcfgA.bbCap (fBuild hi).length && fits tcfgA.sbCap (chunkLen tcfgA * (fBuild hi).length)) = true
    ∧ (fits (some 47) (fBuild hi).length && fits tcfgA.sbCap (chunkLen tcfgA * (fBuild hi).length)) = false := by
  decide +kernel

theorem witness_ListenEndAndGapStepsOfATick :
    40000 = samplesOf tcfgA tcfgA.tListenMs ∧ 0 = samplesOf { tcfgA with tListenMs := 0 } 0
    ∧ (nextRecord { oneEntry [.ok []] [] [] with phase := .tListen }).1 = .ok [] := by
  decide +kernel

theorem witness_EveryTickEndsWithinFiveSteps : ({ base with phase := .tCheck } : State).phase = .tCheck := by decide

theorem witness_RemovalFollowsPlaybackOfTheSameTick :
    played (sequencerStep deaf sending).env.calls ≠ played sending.env.calls
    ∧ (sequencerStep deaf sending).phase = .tRemove
    ∧ (fun s : State => removals (sequencerStep deaf s).env.calls ≠ removals s.env.calls
        ∧ (sequencerStep deaf s).env.outbox ≠ s.env.outbox)
      { sending with phase := .tRemove, env := { sending.env with removes := [.ok] } }
    ∧ CoreInv sending ∧ sending.phase = .tXmit :=
  ⟨by decide +kernel, by decide +kernel, by decide +kernel, sending_inv, rfl⟩

/-- The start of a tick with an entry, at one sample a chunk. -/
def tickStart (records : List RecordReply) (plays removes : List Reply) : State :=
  { oneEntry records plays removes with cfg := { tiny with tSenseMs := 21, tListenMs := 1 }, phase := .tCheck }

/-- 21 silent samples. -/
def silence : List Sample := List.replicate 21 (.rat 0)

theorem witness_FreeTickSendsAndDeletes :
    (fun s : State => s.phase = .tCheck ∧ s.loop = false ∧ s.env.firsts = [.pick 0]
      ∧ s.env.outbox[0]? = some ⟨⟨1⟩, hi⟩ ∧ s.env.records = [.ok silence] ∧ s.env.plays = [.ok]
      ∧ s.env.removes = [.ok] ∧ 21 = samplesOf s.cfg s.cfg.tSenseMs ∧ silence.length = 21
      ∧ (fDemod deaf s.cfg silence).length ≤ s.cfg.noiseBits ∧ fits s.cfg.tbCap hi.length = true
      ∧ fits s.cfg.sbCap 21 = true ∧ fits s.cfg.bbCap (21 / chunkLen s.cfg) = true
      ∧ fits s.cfg.bbCap (fBuild hi).length = true
      ∧ fits s.cfg.sbCap (chunkLen s.cfg * (fBuild hi).length) = true)
      (tickStart [.ok silence] [.ok] [.ok]) := by
  decide +kernel

theorem witness_BusyTickKeepsTheEntry :
    (fun s : State => s.phase = .tCheck ∧ s.loop = false ∧ s.env.firsts = [.pick 0]
      ∧ s.env.outbox[0]? = some ⟨⟨1⟩, hi⟩ ∧ s.env.records = [.ok silence, .ok []]
      ∧ 21 = samplesOf s.cfg s.cfg.tSenseMs ∧ silence.length = 21 ∧ 1 = samplesOf s.cfg s.cfg.tListenMs
      ∧ s.cfg.noiseBits < (fDemod loud s.cfg silence).length ∧ fits s.cfg.tbCap hi.length = true
      ∧ fits s.cfg.sbCap 21 = true ∧ fits s.cfg.bbCap (21 / chunkLen s.cfg) = true)
      (tickStart [.ok silence, .ok []] [] []) := by
  decide +kernel

theorem witness_LeftoversCannotInfluenceATick :
    (fun s s' : State => s.phase = .tCheck ∧ s ≠ s' ∧ s' = { s with
      tb := s'.tb, bb := s'.bb, sb := s'.sb, entryV := s'.entryV, entryH := s'.entryH, chanV := s'.chanV
      chan := s'.chan, outcome := s'.outcome, resCode := s'.resCode, resVal := s'.resVal })
      (tickStart [] [] []) { tickStart [] [] [] with tb := hello, entryV := true, outcome := .listenedThisTick } := by
  decide +kernel

end Sys2Proof.Tests
end

section
/-! SUPPORT. Laws for the statements of 00_scope: what each test that makes a configuration valid says (R5, R9, R10),
and the numerics record whose comparisons are those over the reals (R8). -/

namespace Sys2Proof.Machine

/-! ## Capacities -/

theorem fits_none (n : Nat) : fits none n = true := rfl

theorem fits_some_iff (k n : Nat) : fits (some k) n = true ↔ n ≤ k := decide_eq_true_iff

/-- The range of a capacity (00_scope R9, 41_frame_primitives R149(c)). -/
theorem capacityLegal_iff (cap : Option Nat) :
    capacityLegal cap = true ↔ ∀ k, cap = some k → 0 < k ∧ k < 2 ^ 32 := by
  cases cap with
  | none => simp [capacityLegal]
  | some k => simp [capacityLegal]

/-! ## Windows -/

/-- The test of a bin, made in natural numbers, is the inequality of 40_tonecodec R123 divided by the chunk length. -/
theorem inWindow_iff (c : Cfg) (f k : Nat) {len : Nat} (hlen : 0 < len) :
    inWindow c f len k = true ↔
      (f : ℚ) - c.bandHw ≤ (k : ℚ) * c.fs / len ∧ (k : ℚ) * c.fs / len ≤ (f : ℚ) + c.bandHw := by
  have hq : (0 : ℚ) < len := Nat.cast_pos.mpr hlen
  rw [le_div_iff₀ hq, div_le_iff₀ hq, sub_mul, sub_le_iff_le_add]
  simp only [inWindow, Bool.and_eq_true, decide_eq_true_eq]
  norm_cast

theorem mem_window_iff (c : Cfg) (f len k : Nat) :
    k ∈ window c f len ↔ k ≤ len / 2 ∧ inWindow c f len k = true := by
  simp [window]

theorem windowsNonempty_iff (c : Cfg) (len : Nat) :
    windowsNonempty c len = true ↔ ∀ f ∈ [c.fMark, c.fSpace], ∃ k, k ∈ window c f len := by
  simp [windowsNonempty, List.eq_nil_iff_forall_not_mem]

/-- 00_scope R10(d), for a chunk of at least one sample. -/
theorem windowsNonempty_iff_exists_bin (c : Cfg) {len : Nat} (hlen : 0 < len) :
    windowsNonempty c len = true ↔ ∀ f ∈ [c.fMark, c.fSpace], ∃ k : Nat, k ≤ len / 2
      ∧ (f : ℚ) - c.bandHw ≤ (k : ℚ) * c.fs / len ∧ (k : ℚ) * c.fs / len ≤ (f : ℚ) + c.bandHw := by
  simp only [windowsNonempty_iff, mem_window_iff, inWindow_iff c _ _ hlen]

/-! ## The arithmetic tests, and the step of a core that fails one -/

/-- What arithmetic decides of a configuration, in the terms of 00_scope R5, R9, R10 (a) to (e). -/
theorem arithmeticValid_iff (c : Cfg) : arithmeticValid c = true ↔
    (1 ≤ c.fs ∧ 1 ≤ c.tBitUs ∧ 1 ≤ c.fMark ∧ 1 ≤ c.fSpace
    ∧ capacityLegal c.tbCap = true ∧ capacityLegal c.bbCap = true ∧ capacityLegal c.sbCap = true
    ∧ 1 ≤ chunkLen c ∧ c.fMark ≠ c.fSpace ∧ 2 * c.fMark < c.fs ∧ 2 * c.fSpace < c.fs
    ∧ windowsNonempty c (chunkLen c) = true ∧ 0 ≤ c.thresh) := by
  simp only [arithmeticValid, List.all_cons, List.all_nil, id_eq, Bool.and_eq_true, decide_eq_true_eq, Bool.and_true,
    Rat.num_nonneg]

theorem step_of_invalid {s : State} (h : validCfg s.cfg = false) : step s = .refused .invalidConfiguration := by
  simp [step, h]

/-! ## A numerics whose comparisons are the exact ones -/

theorem fDecbit_eq_exactDecbit {num : Numerics} {c : Cfg} {x : List Sample} (h : ReadsExactly num c x) :
    fDecbit num c x = exactDecbit c (x.map sampleValue) := by
  obtain ⟨hms, hmt, hst⟩ := h
  simp only [fDecbit, decideBit, exactDecbit, hms, hmt, hst]

theorem ExactNum.map_fEncbit {num : Numerics} (h : ExactNum num) (c : Cfg) (b : Bit) :
    (fEncbit num c b).map sampleValue = exactEncbit c b := by
  simp [fEncbit, exactEncbit, h.tone_exact, Function.comp_def]

theorem ExactNum.fDecbit_fEncbit {num : Numerics} (h : ExactNum num) (c : Cfg) (b : Bit) :
    fDecbit num c (fEncbit num c b) = exactDecbit c (exactEncbit c b) := by
  rw [fDecbit_eq_exactDecbit (h.reads_exactly c _), h.map_fEncbit]

theorem ExactNum.toneRoundTrip_iff {num : Numerics} (h : ExactNum num) (c : Cfg) :
    ToneRoundTrip num c ↔ ExactToneRoundTrip c := by
  simp only [ToneRoundTrip, ExactToneRoundTrip, h.fDecbit_fEncbit]

/-! ## There is an exact numerics

Magnitudes are rational and the exact ones need not be. F_DECBIT only compares three numbers, so their ranks among
themselves, shifted so that the threshold keeps its value, compare as the numbers do. -/

/-- How many elements of `S` lie below `v`. -/
noncomputable def rankIn (S : Finset ℝ) (v : ℝ) : ℕ := (S.filter (· < v)).card

theorem rankIn_strictMonoOn (S : Finset ℝ) : StrictMonoOn (rankIn S) S := by
  intro u hu v _ huv
  refine Finset.card_lt_card (Finset.ssubset_iff_of_subset ?below |>.mpr ⟨u, ?_, ?_⟩)
  case below => exact Finset.monotone_filter_right S fun _ _ hw => lt_trans hw huv
  · simpa using ⟨hu, huv⟩
  · simp

/-- The three numbers that F_DECBIT compares for a chunk (40_tonecodec R124). -/
noncomputable def comparedValues (c : Cfg) (x : List ℝ) : Finset ℝ :=
  {bandMagnitude c x c.fMark, bandMagnitude c x c.fSpace, (c.thresh : ℝ)}

/-- The rank of `v` among the compared numbers, shifted so that the threshold keeps its value. -/
noncomputable def rankMagnitude (c : Cfg) (x : List ℝ) (v : ℝ) : Mag :=
  c.thresh + rankIn (comparedValues c x) v - rankIn (comparedValues c x) c.thresh

@[simp] theorem rankMagnitude_thresh (c : Cfg) (x : List ℝ) : rankMagnitude c x c.thresh = c.thresh :=
  add_sub_cancel_right _ _

theorem rankMagnitude_lt_iff {c : Cfg} {x : List ℝ} {u v : ℝ} (hu : u ∈ comparedValues c x)
    (hv : v ∈ comparedValues c x) : rankMagnitude c x u < rankMagnitude c x v ↔ u < v := by
  simp only [rankMagnitude, sub_lt_sub_iff_right, add_lt_add_iff_left, Nat.cast_lt]
  exact (rankIn_strictMonoOn _).lt_iff_lt hu hv

/-- The reference tones, and band magnitudes that compare as the exact ones do. -/
noncomputable def rankNum : Numerics where
  tone := referenceTone
  bandmag c x f := rankMagnitude c (x.map sampleValue) (bandMagnitude c (x.map sampleValue) f)

theorem rankNum_readsExactly (c : Cfg) (x : List Sample) : ReadsExactly rankNum c x := by
  have hm : bandMagnitude c (x.map sampleValue) c.fMark ∈ comparedValues c (x.map sampleValue) := by
    simp [comparedValues]
  have hs : bandMagnitude c (x.map sampleValue) c.fSpace ∈ comparedValues c (x.map sampleValue) := by
    simp [comparedValues]
  have ht : (c.thresh : ℝ) ∈ comparedValues c (x.map sampleValue) := by simp [comparedValues]
  have hmt := rankMagnitude_lt_iff ht hm
  have hst := rankMagnitude_lt_iff ht hs
  rw [rankMagnitude_thresh] at hmt hst
  exact ⟨rankMagnitude_lt_iff hs hm, hmt, hst⟩

theorem exactNum_rankNum : ExactNum rankNum where
  tone_exact _ _ _ := rfl
  reads_exactly := rankNum_readsExactly

end Sys2Proof.Machine
end

section
/-! PROOF. The statements of 00_scope. -/

namespace Sys2Proof.Machine

/-- Settles O8: each test of `validCfg` by its own law; the windows are compared for chunks of at least one sample,
which N >= 1 gives, so that conjunct is assumed before them. -/
theorem onlyValidConfigurationsStep : Obligations.OnlyValidConfigurationsStep := by
  unfold Obligations.OnlyValidConfigurationsStep
  refine ⟨fun c => ?_, fun s => step_of_invalid, fits_none, fits_some_iff⟩
  rw [validCfg_iff, arithmeticValid_iff]
  simp only [capacityLegal_iff, and_assoc]
  -- The seven conjuncts before N >= 1 stand on both sides.
  iterate 7 refine and_congr_right fun _ => ?_
  refine and_congr_right fun (hn : 1 ≤ chunkLen c) => ?_
  rw [windowsNonempty_iff_exists_bin c hn]

/-- Settles O32: F_DECBIT compares three numbers, and ranks in place of magnitudes compare alike (`rankNum`). -/
theorem someNumericsIsTheExactOne : Obligations.SomeNumericsIsTheExactOne := by
  unfold Obligations.SomeNumericsIsTheExactOne
  exact ⟨fun _ _ _ => fDecbit_eq_exactDecbit, ⟨rankNum, exactNum_rankNum⟩, fun _ c h => h.toneRoundTrip_iff c⟩

end Sys2Proof.Machine
end

section
/-! SUPPORT. Laws for the statements of 10_state: the step as one move, and what a command and a
step can do, said once. -/

namespace Sys2Proof.Machine

/-! ## The step as one move -/

/-- `s` in another environment. -/
def State.withEnv (s : State) (e : Env) : State := { s with env := e }

/-- What a step makes of its next move: a command word is decoded and run, an illegal one refused by the core. -/
def runMove : Move → Host.Outcome State Fault Refusal
  | .command w s =>
    match decode w with
    | .ok i => exec i s
    | .error _ => rejectIllegal s
  | .other o => o

theorem runMove_command_ok {w : Word} {i : Instr} (h : decode w = .ok i) (s : State) :
    runMove (.command w s) = exec i s := by simp [runMove, h]

theorem runMove_command_error {w : Word} {e : DecodeError} (h : decode w = .error e) (s : State) :
    runMove (.command w s) = rejectIllegal s := by simp [runMove, h]

@[simp] theorem runMove_other (o : Host.Outcome State Fault Refusal) : runMove (.other o) = o := rfl

theorem step_of_valid {s : State} (h : validCfg s.cfg = true) : step s = runMove (nextMove s) := by
  rw [step, if_pos h]
  rfl

theorem step_of_no_input {s : State} (h : validCfg s.cfg = true) (hi : s.env.inputs = []) : step s = coreStep s := by
  rw [step_of_valid h, nextMove, hi]
  rfl

/-- A step with an input pending makes the move of that input on the state from which it has been taken. -/
theorem step_of_input {s : State} {i : Input} {rest : List Input} (h : validCfg s.cfg = true)
    (hi : s.env.inputs = i :: rest) :
    step s = runMove (inputMove i (s.withEnv { s.env with inputs := rest })) := by
  simp only [step_of_valid h, nextMove, hi, State.popInput, List.tail_cons, State.withEnv]

theorem validCfg_of_step {s t : State} (h : step s = .next t) : validCfg s.cfg = true := by
  by_contra hv
  rw [step_of_invalid (Bool.eq_false_iff.mpr hv)] at h
  cases h

theorem coreStep_of_halt {s : State} (h : s.phase = .halt) : coreStep s = .fault .halted := by simp [coreStep, h]

theorem coreStep_of_ne_halt {s : State} (h : s.phase ≠ .halt) : coreStep s = .next (sequencerStep theNum s) := by
  cases hp : s.phase <;> simp_all [coreStep]

theorem sequencerStep_of_idle (num : Numerics) {s : State} (h : s.phase = .idle) : sequencerStep num s = s := by
  simp [sequencerStep, h]

/-- An idle core with nothing pending waits (10_state R27, log entry 9). -/
theorem step_of_waiting {s : State} (h : validCfg s.cfg = true) (hi : s.env.inputs = []) (idle : s.phase = .idle) :
    step s = .next s := by
  rw [step_of_no_input h hi, coreStep_of_ne_halt (by simp [idle]), sequencerStep_of_idle theNum idle]

/-! ## The operation of an instruction -/

/-- What the operation of each instruction does in IDLE (30_encoding R96). -/
def commandOp : Instr → State → State
  | .encbit b => encbitOp theNum b
  | .decbit => decbitOp theNum
  | .mod => modOp theNum
  | .demod => demodOp theNum
  | .unpack => unpackOp
  | .pack => packOp
  | .renc => rencOp
  | .rdec => rdecOp
  | .crc8 => crc8Op
  | .fsync => fsyncOp
  | .build => buildOp
  | .parse => parseOp
  | .classify => classifyOp
  | .sense ms => senseOp theNum ms
  | .decideAct hasEntry chan => decideOp hasEntry chan
  | .chkout => chkoutOp
  | .xmit => xmitOp theNum
  | .remove => removeOp
  | .listen ms => listenOp ms
  | .tick => tickOp
  | .run => runOp
  | .recv ms => recvOp theNum ms

/-- Every instruction is accepted as its operation in IDLE and discarded elsewhere (60_exceptions R246). -/
theorem exec_eq_whenIdle (i : Instr) (s : State) : exec i s = whenIdle s (commandOp i) := by cases i <;> rfl

/-! ## What a command writes: buffers, ENTRY and the environment, then the result registers or a fault -/

/-- `t` is `s` but for buffers that still fit, ENTRY and the environment. -/
structure BufferWrite (s t : State) : Prop where
  rest_kept : t = { s with
    tb := t.tb, bb := t.bb, sb := t.sb, entryV := t.entryV, entryH := t.entryH, env := t.env }
  keeps_capacity : WithinCapacity s → WithinCapacity t

namespace BufferWrite

variable {s t u : State}

theorem refl (s : State) : BufferWrite s s := ⟨rfl, id⟩

theorem trans (h : BufferWrite s t) (h' : BufferWrite t u) : BufferWrite s u := by
  refine ⟨?_, h'.keeps_capacity ∘ h.keeps_capacity⟩
  rw [h'.rest_kept, h.rest_kept]

theorem entry_env (s : State) (v : Bit) (h : Handle) (env : Env) :
    BufferWrite s { s with entryV := v, entryH := h, env := env } := ⟨rfl, id⟩

theorem withEnv (s : State) (e : Env) : BufferWrite s (s.withEnv e) := ⟨rfl, id⟩

theorem setTb {v : Text} (h : fits s.cfg.tbCap v.length = true) : BufferWrite s (s.setTb v) :=
  ⟨rfl, fun ⟨_, hb, hs⟩ => ⟨h, hb, hs⟩⟩

theorem setBb {v : Bitstream} (h : fits s.cfg.bbCap v.length = true) : BufferWrite s (s.setBb v) :=
  ⟨rfl, fun ⟨ht, _, hs⟩ => ⟨ht, h, hs⟩⟩

theorem setSb {v : List Sample} (h : fits s.cfg.sbCap v.length = true) : BufferWrite s (s.setSb v) :=
  ⟨rfl, fun ⟨ht, hb, _⟩ => ⟨ht, hb, h⟩⟩

end BufferWrite

/-- The state in which a body ended, however it ended. -/
def Body.state : Body → State
  | .done s | .tooLarge s | .deviceFailed s => s

/-- A recording fits SB and its bits fit BB (43_channelsensor R182). -/
theorem bufferWrite_recording (num : Numerics) {s : State} {x : List Sample} (env : Env)
    (hs : fits s.cfg.sbCap x.length = true) (hb : fits s.cfg.bbCap (x.length / chunkLen s.cfg) = true) :
    BufferWrite s { s with sb := x, bb := fDemod num s.cfg x, env := env } :=
  ⟨rfl, fun ⟨ht, _, _⟩ => ⟨ht, fits_mono (fDemod_length_le num s.cfg x) hb, hs⟩⟩

theorem bufferWrite_captureBody (num : Numerics) (ms : Nat) (s : State) :
    BufferWrite s (captureBody num ms s).state := by
  rcases captureBody_cases num ms s with ⟨x, env, e, -, hs, hb, -⟩ | e | ⟨env, e, -⟩ <;> rw [e]
  · exact bufferWrite_recording num env hs hb
  · exact .refl s
  · exact .entry_env s _ _ env

theorem bufferWrite_recvBody (num : Numerics) (ms : Nat) (s : State) :
    BufferWrite s (recvBody num ms s).state := by
  rcases recvBody_cases num ms s with ⟨x, env, e, -, hs, hb, -⟩ | ⟨env, e, -⟩ | ⟨env, e, -⟩ <;> rw [e]
  · exact bufferWrite_recording num env hs hb
  · exact .entry_env s _ _ env
  · exact .entry_env s _ _ env

theorem bufferWrite_checkBody (s : State) : BufferWrite s (checkBody s).state := by
  rcases checkBody_cases s with ⟨h, text, env, e, ht, -⟩ | ⟨env, e, -⟩ | ⟨env, e, -⟩ | ⟨env, e, -⟩ <;> rw [e]
  · exact (BufferWrite.setTb ht).trans (.entry_env _ _ _ env)
  · exact .entry_env s _ _ env
  · exact .entry_env s _ _ env
  · exact .entry_env s _ _ env

theorem bufferWrite_xmitBody (num : Numerics) (s : State) : BufferWrite s (xmitBody num s).state := by
  rcases xmitBody_cases num s with ⟨env, e, hb, hs, -⟩ | e
  · rw [← fMod_length num] at hs
    have frame : BufferWrite s { s with bb := fBuild s.tb, sb := fMod num s.cfg (fBuild s.tb), env := env } :=
      ⟨rfl, fun ⟨ht, _, _⟩ => ⟨ht, hb, hs⟩⟩
    rcases e with e | e <;> rw [e] <;> exact frame
  · rw [e]
    exact .refl s

theorem bufferWrite_listenBody (ms : Nat) (s : State) : BufferWrite s (listenBody ms s).state := by
  obtain ⟨env, e | e, -⟩ := listenBody_cases ms s <;> rw [e] <;> exact .entry_env s _ _ env

/-- The causes that stand beside HALT (60_exceptions R230, R239). -/
def faultCauses : List Cause := [.playbackFailure, .captureFailure, .outboxFailure, .badOperand]

/-- How a command other than TICK and RUN can end: with its result registers written, with RMFAIL and `RemoveFailure`
(44_scheduler R197), or in a fault. -/
inductive CommandEffect (s : State) : State → Prop where
  | completed {u : State} (written : BufferWrite s u) {code : Cause} (stored : code ≠ .coreBusy) {v : Word}
      (res : code = .ok ∨ v = 0#32) : CommandEffect s (u.setRes code v)
  | removeFailed {u : State} (written : BufferWrite s u) :
      CommandEffect s ({ u with rmfail := true }.setRes .removeFailure 0#32)
  | faulted {u : State} (written : BufferWrite s u) (flag : FaultFlag) {cause : Cause} (mem : cause ∈ faultCauses) :
      CommandEffect s (raiseFault flag cause u)

namespace CommandEffect

variable {s t u : State}

theorem ok (h : BufferWrite s u) (v : Word) : CommandEffect s (u.setRes .ok v) := .completed h (by decide) (.inl rfl)

/-- Any stored cause with RES_VAL 0 (60_exceptions R230). -/
theorem zero_value (h : BufferWrite s u) {code : Cause} (stored : code ≠ .coreBusy) :
    CommandEffect s (u.setRes code 0#32) := .completed h stored (.inr rfl)

theorem refused (s : State) : CommandEffect s (refuse .badOperand s) := zero_value (.refl s) (by decide)

/-- An operation that writes its result only where a capacity test succeeds (10_state R25). -/
theorem ok_or_refused {p : Prop} [Decidable p] (h : p → BufferWrite s u) (v : Word) :
    CommandEffect s (if p then u.setRes .ok v else refuse .badOperand s) := by
  split
  · exact ok (h ‹_›) v
  · exact refused s

theorem of_bufferWrite (h : BufferWrite s t) (h' : CommandEffect t u) : CommandEffect s u := by
  cases h' with
  | completed w stored res => exact .completed (h.trans w) stored res
  | removeFailed w => exact .removeFailed (h.trans w)
  | faulted w flag mem => exact .faulted (h.trans w) flag mem

/-- A command made of a body and an end has an effect where its end has one. -/
theorem endCommand {b : Body} (hb : BufferWrite s b.state) (flag : FaultFlag) {cause : Cause}
    (mem : cause ∈ faultCauses) {done : State → State} (hd : ∀ u, CommandEffect u (done u)) :
    CommandEffect s (endCommand flag cause b done) := by
  cases b with
  | done u => exact of_bufferWrite hb (hd u)
  | tooLarge u => exact of_bufferWrite hb (refused u)
  | deviceFailed u => exact .faulted hb flag mem

end CommandEffect

/-! ## Every command has such an effect -/

/-- A valid encoding is never shorter than what it decodes to (41_frame_primitives R146). -/
theorem fRdec_length_le {a d : Text} (h : fRdec a = some d) : d.length ≤ a.length := by
  fun_induction fRdec a generalizing d with
  | case8 a b c e rest p q _ _ _ r _ _ v _ ih =>
    obtain ⟨more, hm, rfl⟩ := Option.map_eq_some_iff.mp h
    have := ih hm
    simp only [List.length_cons]
    omega
  | case1 | case2 | case5 =>
    cases h
    simp
  | case3 | case4 | case6 | case7 | case9 | case10 => cases h

theorem commandEffect_rdecOp (s : State) : CommandEffect s (rdecOp s) := by
  unfold rdecOp
  cases h : fRdec s.tb with
  | none => exact .zero_value (.refl s) (by decide)
  | some d =>
    exact .ok ⟨rfl, fun ⟨ht, hb, hs⟩ => ⟨fits_mono (fRdec_length_le h) ht, hb, hs⟩⟩ _

theorem commandEffect_fsyncOp (s : State) : CommandEffect s (fsyncOp s) := by
  unfold fsyncOp
  cases fFsync s.bb with
  | none => exact .zero_value (.refl s) (by decide)
  | some i => exact .ok (.refl s) _

theorem commandEffect_deliver {code : Cause} (stored : code ≠ .coreBusy) (payload : Text) (s : State) :
    CommandEffect s (deliver code payload s) := by
  unfold deliver
  split
  · exact .zero_value (.setTb ‹_›) stored
  · exact .refused s

theorem commandEffect_parseOp (s : State) : CommandEffect s (parseOp s) := by
  have emptied : BufferWrite s (s.setTb []) := .setTb (fits_zero _)
  unfold parseOp
  cases fParse s.bb with
  | ok p => exact commandEffect_deliver (by decide) p s
  | crcMismatch p => exact commandEffect_deliver (by decide) p s
  | syncNotFound => exact .zero_value emptied (by decide)
  | malformedEncoding => exact .zero_value emptied (by decide)

theorem commandEffect_classifyOp (s : State) : CommandEffect s (classifyOp s) := .ok (.refl s) _

theorem commandEffect_removeOp (s : State) : CommandEffect s (removeOp s) := by
  unfold removeOp
  split
  · obtain ⟨env, ⟨e, -⟩ | ⟨e, -⟩, -⟩ := removeEntry_cases s <;> rw [e]
    · exact .ok (.entry_env s false s.entryH env) _
    · exact .removeFailed (.entry_env s false s.entryH env)
  · exact .refused s

/-- Every operation but TICK and RUN ends in one of the three ways. -/
theorem commandEffect_commandOp {i : Instr} (ht : i ≠ .tick) (hr : i ≠ .run) (s : State) :
    CommandEffect s (commandOp i s) := by
  cases i with
  | encbit b => exact .ok_or_refused (fun h => .setSb (by simpa using h)) _
  | decbit => exact .ok_or_refused (fun _ => .refl s) _
  | mod => exact .ok_or_refused (fun h => .setSb (by simpa using h)) _
  | demod => exact .ok_or_refused (fun h => .setBb (fits_mono (fDemod_length_le theNum s.cfg s.sb) h)) _
  | unpack => exact .ok_or_refused (fun h => .setBb (by simpa using h)) _
  | pack => exact .ok_or_refused (fun h => .setTb (by simpa using h)) _
  | renc => exact .ok_or_refused .setTb _
  | rdec => exact commandEffect_rdecOp s
  | crc8 => exact .ok (.refl s) _
  | fsync => exact commandEffect_fsyncOp s
  | build => exact .ok_or_refused .setBb _
  | parse => exact commandEffect_parseOp s
  | classify => exact commandEffect_classifyOp s
  | sense ms => exact .endCommand (bufferWrite_captureBody theNum ms s) .capture (by decide) commandEffect_classifyOp
  | decideAct hasEntry chan => exact .ok (.refl s) _
  | chkout => exact .endCommand (bufferWrite_checkBody s) .outbox (by decide) fun u => .ok (.refl u) _
  | xmit => exact .endCommand (bufferWrite_xmitBody theNum s) .play (by decide) fun u => .ok (.refl u) _
  | remove => exact commandEffect_removeOp s
  | listen ms => exact .endCommand (bufferWrite_listenBody ms s) .capture (by decide) fun u => .ok (.refl u) _
  | tick => exact absurd rfl ht
  | run => exact absurd rfl hr
  | recv ms => exact .endCommand (bufferWrite_recvBody theNum ms s) .capture (by decide) commandEffect_parseOp

/-- A command that ends in IDLE or in a fault; what it leaves alone (10_state R27, R28, 60_exceptions R239). -/
theorem CommandEffect.frame {s t : State} (h : CommandEffect s t) :
    t.chanV = s.chanV ∧ t.chan = s.chan ∧ t.outcome = s.outcome ∧ t.cfg = s.cfg ∧ t.loop = s.loop
      ∧ (t.phase = s.phase ∨ (t.phase = .halt ∧ anyFault t = true)) := by
  cases h with
  | completed written => rw [written.rest_kept]; exact ⟨rfl, rfl, rfl, rfl, rfl, .inl rfl⟩
  | removeFailed written => rw [written.rest_kept]; exact ⟨rfl, rfl, rfl, rfl, rfl, .inl rfl⟩
  | faulted written flag =>
    refine ⟨?_, ?_, ?_, ?_, ?_, .inr ⟨raiseFault_phase _ _ _, anyFault_raiseFault _ _ _⟩⟩ <;>
      rw [written.rest_kept, raiseFault_eq]

/-! ## What a step can do -/

/-- A step with whatever input: the record or the pending moves alone, a buffer the host loads, a command, the start of
a tick, the sequencer's own step, or reset. -/
inductive StepEffect (s : State) : State → Prop where
  | env (e : Env) : StepEffect s (s.withEnv e)
  | load (idle : s.phase = .idle) {t : State} (written : BufferWrite s t) : StepEffect s t
  | command (idle : s.phase = .idle) {t : State} (effect : CommandEffect s t) : StepEffect s t
  | start (idle : s.phase = .idle) (l : Bit) (e : Env) : StepEffect s (startTick l (s.withEnv e))
  | sequencer (running : s.phase ≠ .halt) (e : Env) : StepEffect s (sequencerStep theNum (s.withEnv e))
  | reset (pending : s.env.inputs.head? = some .reset) (e : Env) : StepEffect s (platformReset (s.withEnv e))

theorem eq_of_hostLoad {s u t : State} {cap : Option Nat} {len : Nat} (h : hostLoad s u cap len = .next t) :
    s.phase = .idle ∧ fits cap len = true ∧ t = u := by
  unfold hostLoad at h
  split at h
  · rename_i hc
    cases h
    exact ⟨hc.1, hc.2, rfl⟩
  · cases h

theorem eq_of_hostRead {s t : State} {e : Event} (h : hostRead s e = .next t) :
    s.phase = .idle ∧ t = s.logCall e := by
  unfold hostRead at h
  split at h
  · cases h
    exact ⟨‹_›, rfl⟩
  · cases h

theorem stepEffect_coreStep {s t : State} (e : Env) (h : coreStep (s.withEnv e) = .next t) : StepEffect s t := by
  by_cases hp : (s.withEnv e).phase = .halt
  · rw [coreStep_of_halt hp] at h
    cases h
  · rw [coreStep_of_ne_halt hp] at h
    cases h
    exact .sequencer (s := s) hp e

theorem stepEffect_exec {s t : State} {i : Instr} (e : Env) (h : exec i (s.withEnv e) = .next t) :
    StepEffect s t := by
  rw [exec_eq_whenIdle] at h
  obtain ⟨idle, rfl⟩ | ⟨-, rfl⟩ := whenIdle_cases h
  · by_cases ht : i = .tick
    · subst ht
      exact .start (s := s) idle false e
    by_cases hr : i = .run
    · subst hr
      exact .start (s := s) idle true e
    exact .command (s := s) idle (.of_bufferWrite (.withEnv s e) (commandEffect_commandOp ht hr _))
  · exact .env _

theorem stepEffect_rejectIllegal {s t : State} (e : Env) (h : rejectIllegal (s.withEnv e) = .next t) :
    StepEffect s t := by
  obtain ⟨idle, rfl⟩ | ⟨-, rfl⟩ := whenIdle_cases h
  · exact .command (s := s) idle (.zero_value (.withEnv s e) (by decide))
  · exact .env _

theorem stepEffect_writeReg {s t : State} {n : Nat} {w : Word} (e : Env)
    (h : runMove (inputMove (.writeReg n w) (s.withEnv e)) = .next t) : StepEffect s t := by
  by_cases hn : n = 0
  · simp only [inputMove, hn, if_true] at h
    cases hd : decode w with
    | ok i => exact stepEffect_exec e (runMove_command_ok hd _ ▸ h)
    | error d => exact stepEffect_rejectIllegal e (runMove_command_error hd _ ▸ h)
  · simp only [inputMove, hn, if_false, runMove_other] at h
    cases h
    exact .env e

/-- Every step that answers a next state has one of these effects. -/
theorem stepEffect_of_step {s t : State} (h : step s = .next t) : StepEffect s t := by
  have hv := validCfg_of_step h
  cases hi : s.env.inputs with
  | nil =>
    rw [step_of_no_input hv hi] at h
    exact stepEffect_coreStep s.env h
  | cons i rest =>
    rw [step_of_input hv hi] at h
    generalize ({ s.env with inputs := rest } : Env) = e at h
    have popped : BufferWrite s (s.withEnv e) := .withEnv s e
    cases i with
    | core => exact stepEffect_coreStep e h
    | writeReg n w => exact stepEffect_writeReg e h
    | readReg n => cases h; exact .env _
    | loadTb v => obtain ⟨idle, fit, rfl⟩ := eq_of_hostLoad h; exact .load (s := s) idle (popped.trans (.setTb fit))
    | loadBb v => obtain ⟨idle, fit, rfl⟩ := eq_of_hostLoad h; exact .load (s := s) idle (popped.trans (.setBb fit))
    | loadSb v => obtain ⟨idle, fit, rfl⟩ := eq_of_hostLoad h; exact .load (s := s) idle (popped.trans (.setSb fit))
    | readTb => obtain ⟨-, rfl⟩ := eq_of_hostRead h; exact .env _
    | readBb => obtain ⟨-, rfl⟩ := eq_of_hostRead h; exact .env _
    | readSb => obtain ⟨-, rfl⟩ := eq_of_hostRead h; exact .env _
    | addEntry entry => cases h; exact .env _
    | reset => cases h; exact .reset (by simp [hi]) e

end Sys2Proof.Machine
end

section
/-! SUPPORT. Laws for the statements of 10_state: what every step but reset keeps (R29, R32), and the invariant of the
core through every effect a step can have. -/

namespace Sys2Proof.Machine

/-! ## What every step but reset keeps -/

/-- The configuration is the same and no sticky flag that is set is cleared (10_state R29, R32). -/
structure Kept (s t : State) : Prop where
  cfg : t.cfg = s.cfg
  sticky : StickyKept s t

namespace Kept

variable {s t u : State}

theorem refl (s : State) : Kept s s := ⟨rfl, id, id, id, id, id⟩

theorem trans (h : Kept s t) (h' : Kept t u) : Kept s u := by
  obtain ⟨hc, hr, hp, hca, ho, hop⟩ := h
  obtain ⟨hc', hr', hp', hca', ho', hop'⟩ := h'
  exact ⟨hc'.trans hc, hr' ∘ hr, hp' ∘ hp, hca' ∘ hca, ho' ∘ ho, hop' ∘ hop⟩

theorem of_bufferWrite (h : BufferWrite s t) : Kept s t := by
  rw [h.rest_kept]
  exact ⟨rfl, id, id, id, id, id⟩

theorem raiseFault (flag : FaultFlag) (cause : Cause) (s : State) : Kept s (raiseFault flag cause s) := by
  rw [raiseFault_eq]
  refine ⟨rfl, id, ?_, ?_, ?_, ?_⟩ <;> exact fun h => by simp [h]

theorem of_commandEffect (h : CommandEffect s t) : Kept s t := by
  cases h with
  | completed w => exact (of_bufferWrite w).trans ⟨rfl, id, id, id, id, id⟩
  | removeFailed w => exact (of_bufferWrite w).trans ⟨rfl, fun _ => rfl, id, id, id, id⟩
  | faulted w flag => exact (of_bufferWrite w).trans (.raiseFault flag _ _)

/-- A step of a tick made of a body and an end keeps what its end keeps. -/
theorem endTickStep {b : Body} (hb : Kept s b.state) (flag : FaultFlag) (cause : Cause) {done : State → State}
    (hd : ∀ u, Kept u (done u)) : Kept s (endTickStep flag cause b done) := by
  cases b with
  | done u => exact hb.trans (hd u)
  | tooLarge u => exact hb.trans (.raiseFault _ _ u)
  | deviceFailed u => exact hb.trans (.raiseFault _ _ u)

end Kept

theorem kept_tCheck (s : State) : Kept s (tCheck s) := by
  have cleared : Kept s (clearTick s) := ⟨rfl, id, id, id, id, id⟩
  exact .endTickStep (cleared.trans (.of_bufferWrite (bufferWrite_checkBody _))) _ _
    fun _ => ⟨rfl, id, id, id, id, id⟩

theorem kept_senseDone (t : State) : Kept t (senseDone t) := by
  unfold senseDone
  split <;> exact ⟨rfl, id, id, id, id, id⟩

theorem kept_tRemove (s : State) : Kept s (tRemove s) := by
  obtain ⟨env, ⟨e, -⟩ | ⟨e, -⟩, -⟩ := removeEntry_cases s <;> rw [tRemove, e]
  · exact ⟨rfl, id, id, id, id, id⟩
  · exact ⟨rfl, fun _ => rfl, id, id, id, id⟩

theorem kept_sequencerStep (num : Numerics) (s : State) : Kept s (sequencerStep num s) := by
  unfold sequencerStep
  cases s.phase with
  | idle | halt | tEnd | tGap => exact ⟨rfl, id, id, id, id, id⟩
  | tCheck => exact kept_tCheck s
  | tSense => exact .endTickStep (.of_bufferWrite (bufferWrite_captureBody num _ s)) _ _ kept_senseDone
  | tXmit => exact .endTickStep (.of_bufferWrite (bufferWrite_xmitBody num s)) _ _ fun _ => ⟨rfl, id, id, id, id, id⟩
  | tRemove => exact kept_tRemove s
  | tListen => exact .endTickStep (.of_bufferWrite (bufferWrite_listenBody _ s)) _ _ fun _ => ⟨rfl, id, id, id, id, id⟩

/-! ## The invariant -/

/-- Every fault leaves the invariant true (60_exceptions R239). -/
theorem coreInv_raiseFault {s : State} (hc : WithinCapacity s) (hv : s.chan = .busy → s.chanV = true)
    (flag : FaultFlag) {cause : Cause} (mem : cause ∈ faultCauses) : CoreInv (raiseFault flag cause s) := by
  have stored : cause ≠ .coreBusy := by
    rintro rfl
    exact absurd mem (by decide)
  refine ⟨?_, by simp, ?_, ?_, ?_, ?_⟩
  all_goals rw [raiseFault_eq]
  exacts [hc, stored, hv, trivial, ⟨rfl, mem⟩]

theorem CoreInv.no_fault {s : State} (h : CoreInv s) (running : s.phase ≠ .halt) : anyFault s = false :=
  Bool.eq_false_iff.mpr (mt h.halt_iff_fault.mpr running)

/-- Outside HALT no fault flag is set; what is left of the invariant. -/
theorem coreInv_of_running {s : State} (running : s.phase ≠ .halt) (clear : anyFault s = false)
    (hc : WithinCapacity s) (stored : s.resCode ≠ .coreBusy) (hv : s.chan = .busy → s.chanV = true)
    (hp : PhaseConsistent s) (hr : ResultConsistent s) : CoreInv s :=
  ⟨hc, by simp [running, clear], stored, hv, hp, hr⟩

theorem coreInv_of_idle_write {s u : State} (h : CoreInv s) (idle : s.phase = .idle) (written : BufferWrite s u) :
    CoreInv u := by
  have clear := h.no_fault (by simp [idle])
  have hc := written.keeps_capacity h.within_capacity
  have hr := h.result_consistent
  simp only [ResultConsistent, idle] at hr
  rw [written.rest_kept] at hc ⊢
  refine coreInv_of_running (by simp [idle]) clear hc h.code_stored h.chan_valid ?_ ?_
  · simp [PhaseConsistent, idle]
  · simpa only [ResultConsistent, idle] using hr

/-- Result registers and RMFAIL as a command may leave them in IDLE. -/
theorem coreInv_of_idle_results {s : State} (h : CoreInv s) (idle : s.phase = .idle) (rm : Bit) {code : Cause}
    (stored : code ≠ .coreBusy) {v : Word} (res : code = .ok ∨ v = 0#32) :
    CoreInv ({ s with rmfail := rm }.setRes code v) := by
  refine coreInv_of_running (by simp [idle]) (h.no_fault (by simp [idle])) h.within_capacity stored h.chan_valid ?_ ?_
  · simp [PhaseConsistent, idle]
  · simp only [ResultConsistent, setRes_phase, idle, setRes_resCode, setRes_resVal]
    exact res.imp_right .inl

theorem coreInv_commandEffect {s t : State} (h : CoreInv s) (idle : s.phase = .idle) (effect : CommandEffect s t) :
    CoreInv t := by
  have idle_of {u : State} (written : BufferWrite s u) : u.phase = .idle := by rw [written.rest_kept]; exact idle
  cases effect with
  | @completed u written _ stored _ res =>
    exact coreInv_of_idle_results (coreInv_of_idle_write h idle written) (idle_of written) u.rmfail stored res
  | removeFailed written =>
    exact coreInv_of_idle_results (coreInv_of_idle_write h idle written) (idle_of written) true (by decide) (.inr rfl)
  | faulted written flag mem =>
    have hu := coreInv_of_idle_write h idle written
    exact coreInv_raiseFault hu.within_capacity hu.chan_valid flag mem

theorem coreInv_startTick {s : State} (h : CoreInv s) (idle : s.phase = .idle) (l : Bit) (e : Env) :
    CoreInv (startTick l (s.withEnv e)) := by
  have hr := h.result_consistent
  simp only [ResultConsistent, idle] at hr
  exact coreInv_of_running (by simp [startTick]) (h.no_fault (by simp [idle])) h.within_capacity h.code_stored
    h.chan_valid trivial hr

theorem coreInv_platformReset (s : State) : CoreInv (platformReset s) :=
  coreInv_of_running (by simp [platformReset, State.reset]) rfl ⟨fits_zero _, fits_zero _, fits_zero _⟩
    (by simp [platformReset, State.reset]) (by simp [platformReset, State.reset]) trivial (.inl rfl)

/-! ## The invariant along a tick -/

theorem coreInv_clearTick {s : State} (h : CoreInv s) (hp : s.phase = .tCheck) : CoreInv (clearTick s) := by
  refine coreInv_of_running (by simp [clearTick, hp]) (h.no_fault (by simp [hp])) h.within_capacity
    (by simp [clearTick]) (by simp [clearTick]) ?_ ?_
  · simp [PhaseConsistent, clearTick, hp]
  · simp [ResultConsistent, clearTick, hp]

theorem coreInv_tCheck {s : State} (h : CoreInv s) (hp : s.phase = .tCheck) : CoreInv (tCheck s) := by
  have clear := h.no_fault (by simp [hp])
  obtain ⟨hc, -, stored, hv, -, -⟩ := coreInv_clearTick h hp
  unfold tCheck
  rcases checkBody_cases (clearTick s) with ⟨i, text, env, e, ht, -⟩ | ⟨env, e, -⟩ | ⟨env, e, -⟩ | ⟨env, e, -⟩ <;>
    simp only [e, endTickStep]
  · obtain ⟨-, hb, hs⟩ := hc
    exact coreInv_of_running (by simp) clear ⟨ht, hb, hs⟩ stored hv ⟨rfl, rfl, rfl⟩ ⟨rfl, rfl⟩
  · exact coreInv_of_running (by simp) clear hc stored hv ⟨rfl, nofun, fun _ => rfl⟩ ⟨rfl, rfl⟩
  · exact coreInv_raiseFault (s := (clearTick s).withEnv env) hc hv _ (by decide)
  · exact coreInv_raiseFault (s := (clearTick s).withEnv env) hc hv _ (by decide)

/-- After a sense: Busy goes to T_LISTEN with the entry kept, Free to T_XMIT (44_scheduler R203). -/
theorem coreInv_senseDone {s : State} (clear : anyFault s = false) (hc : WithinCapacity s) (hv : s.entryV = true)
    (ho : s.outcome = .none) (hcode : s.resCode = .ok) (hval : s.resVal = 0#32) : CoreInv (senseDone s) := by
  unfold senseDone
  split
  · refine coreInv_of_running (by simp) clear hc (by simp) (by simp) ⟨ho, fun _ => ⟨rfl, rfl⟩, ?_⟩ ⟨?_, hval⟩
    · simp [hv]
    · simp [hv]
  · exact coreInv_of_running (by simp) clear hc (by simp [hcode]) (by simp) ⟨hv, rfl, rfl, ho⟩ ⟨hcode, hval⟩

theorem coreInv_tSense (num : Numerics) {s : State} (h : CoreInv s) (hp : s.phase = .tSense) :
    CoreInv (tSense num s) := by
  have clear := h.no_fault (by simp [hp])
  obtain ⟨hc, -, -, hv, hph, hres⟩ := h
  simp only [PhaseConsistent, ResultConsistent, hp] at hph hres
  obtain ⟨entry, -, outcome⟩ := hph
  obtain ⟨code, val⟩ := hres
  unfold tSense
  rcases captureBody_cases num s.cfg.tSenseMs s with ⟨x, env, e, -, hs, hb, -⟩ | e | ⟨env, e, -⟩ <;>
    simp only [e, endTickStep]
  · exact coreInv_senseDone clear ((bufferWrite_recording num env hs hb).keeps_capacity hc) entry outcome code val
  · exact coreInv_raiseFault hc hv _ (by decide)
  · exact coreInv_raiseFault (s := s.withEnv env) hc hv _ (by decide)

theorem coreInv_tXmit (num : Numerics) {s : State} (h : CoreInv s) (hp : s.phase = .tXmit) :
    CoreInv (tXmit num s) := by
  have clear := h.no_fault (by simp [hp])
  have written := (bufferWrite_xmitBody num s).keeps_capacity h.within_capacity
  obtain ⟨hc, -, stored, hv, hph, hres⟩ := h
  simp only [PhaseConsistent, ResultConsistent, hp] at hph hres
  unfold tXmit
  rcases xmitBody_cases num s with ⟨env, e | e, -⟩ | e <;>
    simp only [e, endTickStep] at written ⊢
  · exact coreInv_of_running (by simp) clear written stored hv hph hres
  · exact coreInv_raiseFault written hv _ (by decide)
  · exact coreInv_raiseFault hc hv _ (by decide)

theorem coreInv_tRemove {s : State} (h : CoreInv s) (hp : s.phase = .tRemove) : CoreInv (tRemove s) := by
  have clear := h.no_fault (by simp [hp])
  obtain ⟨hc, -, stored, hv, hph, hres⟩ := h
  simp only [PhaseConsistent, ResultConsistent, hp] at hph hres
  obtain ⟨-, chanV, chan, -⟩ := hph
  obtain ⟨code, val⟩ := hres
  obtain ⟨env, ⟨e, -⟩ | ⟨e, -⟩, -⟩ := removeEntry_cases s <;> simp only [tRemove, e]
  · exact coreInv_of_running (by simp) clear hc stored hv (.inl ⟨rfl, rfl, chanV, chan⟩)
      ⟨val, fun _ => .inl code, nofun⟩
  · exact coreInv_of_running (by simp) clear hc (by simp) hv (.inl ⟨rfl, rfl, chanV, chan⟩)
      ⟨val, fun _ => .inr rfl, nofun⟩

theorem coreInv_tListen {s : State} (h : CoreInv s) (hp : s.phase = .tListen) : CoreInv (tListen s) := by
  have clear := h.no_fault (by simp [hp])
  obtain ⟨hc, -, stored, hv, hph, hres⟩ := h
  simp only [PhaseConsistent, ResultConsistent, hp] at hph hres
  obtain ⟨-, held, none⟩ := hph
  obtain ⟨code, val⟩ := hres
  unfold tListen
  obtain ⟨env, e | e, -⟩ := listenBody_cases s.cfg.tListenMs s <;>
    simp only [e, endTickStep]
  · exact coreInv_of_running (by simp) clear hc stored hv (.inr ⟨rfl, held, none⟩) ⟨val, nofun, fun _ => code⟩
  · exact coreInv_raiseFault (s := s.withEnv env) hc hv _ (by decide)

/-- The outcome that T_END writes to RES_VAL agrees with the cause that the tick raised (log entry 16). -/
theorem resultConsistent_tEnd {s : State} (hph : PhaseConsistent s) (hres : ResultConsistent s) (hp : s.phase = .tEnd) :
    ResultConsistent (tEnd s) := by
  simp only [PhaseConsistent, ResultConsistent, hp] at hph hres
  obtain ⟨-, sent, listened⟩ := hres
  have shown : s.resCode = .ok ∨ BitVec.ofNat 32 s.outcome.code = 0#32
      ∨ (s.resCode = .channelBusyContention ∧ s.outcome = .listenedThisTick
        ∧ BitVec.ofNat 32 s.outcome.code = 2#32)
      ∨ (s.resCode = .removeFailure ∧ s.outcome = .transmittedThisTick
        ∧ BitVec.ofNat 32 s.outcome.code = 1#32) := by
    rcases hph with ⟨ho, -⟩ | ⟨ho, -⟩
    · rcases sent ho with hc | hc
      · exact .inl hc
      · exact .inr (.inr (.inr ⟨hc, ho, by rw [ho]; rfl⟩))
    · have hc := listened ho
      split at hc
      · exact .inr (.inr (.inl ⟨hc, ho, by rw [ho]; rfl⟩))
      · exact .inl hc
  unfold tEnd
  cases s.loop <;> exact shown

theorem coreInv_tEnd {s : State} (h : CoreInv s) (hp : s.phase = .tEnd) : CoreInv (tEnd s) := by
  have clear := h.no_fault (by simp [hp])
  obtain ⟨hc, -, stored, hv, hph, hres⟩ := h
  refine coreInv_of_running ?_ clear hc stored hv ?_ (resultConsistent_tEnd hph hres hp)
  · cases hl : s.loop <;> simp [tEnd, hl]
  · simp only [PhaseConsistent, hp] at hph
    have ended : s.outcome ≠ .none := by
      rcases hph with ⟨ho, -⟩ | ⟨ho, -⟩ <;> simp [ho]
    cases hl : s.loop <;> simp [tEnd, hl, PhaseConsistent, ended]

theorem coreInv_tGap {s : State} (h : CoreInv s) (hp : s.phase = .tGap) : CoreInv (tGap s) := by
  have clear := h.no_fault (by simp [hp])
  obtain ⟨hc, -, stored, hv, -, hres⟩ := h
  simp only [ResultConsistent, hp] at hres
  exact coreInv_of_running (by simp [tGap]) clear hc stored hv trivial hres

theorem coreInv_sequencerStep (num : Numerics) {s : State} (h : CoreInv s) : CoreInv (sequencerStep num s) := by
  unfold sequencerStep
  split
  · exact h
  · exact coreInv_tCheck h ‹_›
  · exact coreInv_tSense num h ‹_›
  · exact coreInv_tXmit num h ‹_›
  · exact coreInv_tRemove h ‹_›
  · exact coreInv_tListen h ‹_›
  · exact coreInv_tEnd h ‹_›
  · exact coreInv_tGap h ‹_›
  · exact h

/-- The invariant says nothing of the environment. -/
theorem coreInv_withEnv {s : State} (h : CoreInv s) (e : Env) : CoreInv (s.withEnv e) := by
  obtain ⟨hc, hf, stored, hv, hp, hr⟩ := h
  exact ⟨hc, hf, stored, hv, hp, hr⟩

end Sys2Proof.Machine
end

section
/-! SUPPORT. Laws for the statements of 10_state: the fields of STATUS (R31) and access to the registers (R34). -/

namespace Sys2Proof.Machine

/-! ## STATUS -/

theorem bitNat_lt (b : Bit) : bitNat b < 2 := by cases b <;> decide

theorem Phase.code_lt (p : Phase) : p.code < 16 := by cases p <;> decide

theorem TickOutcome.code_lt (o : TickOutcome) : o.code < 4 := by cases o <;> decide

/-- Some bits of a word, as a number. -/
theorem extractLsb'_of_div_mod {w : Word} {start len n : Nat} (h : w.toNat / 2 ^ start % 2 ^ len = n) :
    w.extractLsb' start len = BitVec.ofNat len n := by
  apply BitVec.eq_of_toNat_eq
  rw [BitVec.extractLsb'_toNat, Nat.shiftRight_eq_div_pow, h, BitVec.toNat_ofNat, ← h, Nat.mod_mod]

/-- One bit of a word, as a number. -/
theorem getLsbD_of_div_mod {w : Word} {i : Nat} {b : Bit} (h : w.toNat / 2 ^ i % 2 = bitNat b) :
    w.getLsbD i = b := by
  rw [BitVec.getLsbD, Nat.testBit_eq_decide_div_mod_eq, h]
  cases b <;> rfl

/-- The fields of STATUS (10_state R31): of the number that `statusWord` sums up, each is some binary digits. -/
theorem statusWord_fields (s : State) :
    (statusWord s).extractLsb' 0 4 = BitVec.ofNat 4 s.phase.code ∧ (statusWord s).getLsbD 4 = s.loop
    ∧ (statusWord s).getLsbD 5 = s.entryV ∧ (statusWord s).getLsbD 6 = s.chanV
    ∧ (statusWord s).getLsbD 7 = s.chan.bit ∧ (statusWord s).extractLsb' 8 2 = BitVec.ofNat 2 s.outcome.code
    ∧ (statusWord s).getLsbD 10 = s.rmfail ∧ (statusWord s).getLsbD 11 = s.faultPlay
    ∧ (statusWord s).getLsbD 12 = s.faultCapture ∧ (statusWord s).getLsbD 13 = s.faultOutbox
    ∧ (statusWord s).getLsbD 14 = s.faultOperand ∧ (statusWord s).extractLsb' 15 17 = 0#17 := by
  have phase := s.phase.code_lt
  have outcome := s.outcome.code_lt
  have loop := bitNat_lt s.loop
  have entryV := bitNat_lt s.entryV
  have chanV := bitNat_lt s.chanV
  have chan := bitNat_lt s.chan.bit
  have rmfail := bitNat_lt s.rmfail
  have play := bitNat_lt s.faultPlay
  have capture := bitNat_lt s.faultCapture
  have outbox := bitNat_lt s.faultOutbox
  have operand := bitNat_lt s.faultOperand
  have value : (statusWord s).toNat = _ := BitVec.toNat_ofNat _ 32
  rw [Nat.mod_eq_of_lt (by omega)] at value
  refine ⟨extractLsb'_of_div_mod ?_, getLsbD_of_div_mod ?_, getLsbD_of_div_mod ?_, getLsbD_of_div_mod ?_,
    getLsbD_of_div_mod ?_, extractLsb'_of_div_mod ?_, getLsbD_of_div_mod ?_, getLsbD_of_div_mod ?_,
    getLsbD_of_div_mod ?_, getLsbD_of_div_mod ?_, getLsbD_of_div_mod ?_, extractLsb'_of_div_mod (n := 0) ?_⟩
  all_goals
    rw [value]
    omega

/-! ## Register access -/

theorem step_readReg {s : State} {n : Nat} {rest : List Input} (h : validCfg s.cfg = true)
    (hi : s.env.inputs = .readReg n :: rest) :
    step s = .next (hostReadReg n (s.withEnv { s.env with inputs := rest })) := step_of_input h hi

theorem step_writeReg {s : State} {n : Nat} {v : Word} {rest : List Input} (h : validCfg s.cfg = true) (hn : n ≠ 0)
    (hi : s.env.inputs = .writeReg n v :: rest) : step s = .next (s.withEnv { s.env with inputs := rest }) := by
  rw [step_of_input h hi, inputMove, if_neg hn, runMove_other]

theorem registerWord_of_unlisted (s : State) {n : Nat} (h : (8 ≤ n ∧ n ≤ 15) ∨ 29 ≤ n) : registerWord s n = 0#32 := by
  unfold registerWord
  split
  case h_21 => rfl
  all_goals omega

theorem registerWord_entryH {s : State} (h : s.entryV = true) : registerWord s 7 = Config.handleWord s.entryH := by
  simp [registerWord, h]

/-- The registers that show a number (10_state R34). -/
theorem registerWord_of_number (s : State) :
    ∀ p ∈ [(4, s.tb.length), (5, s.bb.length), (6, s.sb.length), (16, s.cfg.fs), (17, s.cfg.tBitUs),
        (18, s.cfg.fMark), (19, s.cfg.fSpace), (20, s.cfg.bandHw), (22, s.cfg.noiseBits), (23, s.cfg.tTickMs),
        (24, s.cfg.tSenseMs), (25, s.cfg.tListenMs), (26, chunkLen s.cfg)], registerWord s p.1 = toWord p.2 := by
  simp [registerWord]

end Sys2Proof.Machine
end

section
/-! SUPPORT. Laws for the statements of 10_state: two runs that differ in what an earlier tick left behind (R39,
44_scheduler R204). -/

namespace Sys2Proof.Machine

/-! ## The external primitives depend on the environment alone -/

/-- A primitive whose answer and whose effect are the environment's (10_state R36): it gives in `t` what it gives in
`s` with the same environment, and writes nothing else. -/
def OfEnv {α : Type} (f : State → α × State) : Prop :=
  ∀ s t : State, t.env = s.env → f t = ((f s).1, t.withEnv (f s).2.env)

theorem OfEnv.same_answer {α : Type} {f : State → α × State} (hf : OfEnv f) {s t : State} (h : t.env = s.env) :
    ∃ a e, f s = (a, s.withEnv e) ∧ f t = (a, t.withEnv e) := ⟨_, _, hf s s rfl, hf s t h⟩

theorem ofEnv_nextRecord : OfEnv nextRecord := by
  intro s t h
  unfold nextRecord
  rw [h]
  cases s.env.records <;> rfl

theorem ofEnv_nextPlay : OfEnv nextPlay := by
  intro s t h
  unfold nextPlay
  rw [h]
  cases s.env.plays <;> rfl

theorem ofEnv_nextFirst : OfEnv nextFirst := by
  intro s t h
  unfold nextFirst
  rw [h]
  cases s.env.firsts <;> rfl

theorem ofEnv_nextRemove : OfEnv nextRemove := by
  intro s t h
  unfold nextRemove
  rw [h]
  cases s.env.removes <;> rfl

theorem ofEnv_audioRecord (n : Nat) : OfEnv (audioRecord n) := by
  intro s t h
  obtain ⟨a, e, hs, ht⟩ := ofEnv_nextRecord.same_answer h
  unfold audioRecord
  rw [hs, ht, h]
  by_cases hn : n = 0
  · simp [hn, State.logCall, State.withEnv, h]
  · simp only [hn, if_false]
    cases a <;> rfl

theorem ofEnv_audioPlay (x : List Sample) : OfEnv (audioPlay x) := by
  intro s t h
  obtain ⟨a, e, hs, ht⟩ := ofEnv_nextPlay.same_answer h
  rw [audioPlay, audioPlay, hs, ht]
  rfl

theorem ofEnv_outboxFirst : OfEnv outboxFirst := by
  intro s t h
  obtain ⟨a, e, hs, ht⟩ := ofEnv_nextFirst.same_answer h
  rw [outboxFirst, outboxFirst, hs, ht, h]
  rfl

theorem ofEnv_outboxRemove (i : Handle) : OfEnv (outboxRemove i) := by
  intro s t h
  obtain ⟨a, e, hs, ht⟩ := ofEnv_nextRemove.same_answer h
  unfold outboxRemove
  rw [hs, ht]
  cases a <;> rfl

/-! ## Two runs that differ in leftovers alone -/

/-- `s` with the buffers and ENTRY.H of `u`. -/
def State.withLeftovers (s u : State) : State := { s with tb := u.tb, bb := u.bb, sb := u.sb, entryH := u.entryH }

/-- The phases of a tick that read TB or ENTRY.H (44_scheduler R203), and T_SENSE, which comes before them. -/
def NeedsEntry : Phase → Prop
  | .tSense | .tXmit | .tRemove => True
  | .idle | .tCheck | .tListen | .tEnd | .tGap | .halt => False

/-- Past T_CHECK the two states differ in BB, SB and, while no entry is held, in TB and ENTRY.H; a tick that reads them
holds an entry. -/
structure TickAgree (s t : State) : Prop where
  rest : t = s.withLeftovers t
  entry : s.entryV = true → t.tb = s.tb ∧ t.entryH = s.entryH
  held : NeedsEntry s.phase → s.entryV = true

/-- The same fault taken in two states that differ in leftovers. -/
theorem tickAgree_raiseFault {s : State} (u : State) (entry : s.entryV = true → u.tb = s.tb ∧ u.entryH = s.entryH)
    (flag : FaultFlag) (cause : Cause) :
    TickAgree (raiseFault flag cause s) (raiseFault flag cause (s.withLeftovers u)) := by
  rw [raiseFault_eq, raiseFault_eq]
  exact ⟨rfl, entry, False.elim⟩

/-- T_CHECK starts from cleared registers, so what stood in them is forgotten (44_scheduler R201, R204). -/
theorem tickAgree_tCheck {s t : State} (h : clearTick t = (clearTick s).withLeftovers t) :
    TickAgree (tCheck s) (tCheck t) := by
  have env : (clearTick t).env = (clearTick s).env := by rw [h]; rfl
  have cfg : (clearTick t).cfg = (clearTick s).cfg := by rw [h]; rfl
  obtain ⟨a, e, hs, ht⟩ := ofEnv_outboxFirst.same_answer env
  simp only [tCheck, checkBody, hs, ht, cfg]
  rw [h]
  cases a with
  | none => exact ⟨rfl, nofun, False.elim⟩
  | fail => exact tickAgree_raiseFault (s := (clearTick s).withEnv e) t nofun _ _
  | some i text =>
    by_cases hf : fits (clearTick s).cfg.tbCap text.length = true
    · simp only [hf, if_true]
      exact ⟨rfl, fun _ => ⟨rfl, rfl⟩, fun _ => rfl⟩
    · simp only [hf]
      exact tickAgree_raiseFault (s := (clearTick s).withEnv e) t nofun _ _

section
variable {s u : State}

theorem tickAgree_senseDone (held : s.entryV = true) (text : u.tb = s.tb) (handle : u.entryH = s.entryH)
    (bits : u.bb = s.bb) : TickAgree (senseDone s) (senseDone (s.withLeftovers u)) := by
  have same : fClassify s.cfg (s.withLeftovers u).bb = fClassify s.cfg s.bb := by rw [← bits]; rfl
  unfold senseDone
  rw [show (s.withLeftovers u).cfg = s.cfg from rfl, same]
  cases fClassify s.cfg s.bb <;> exact ⟨rfl, fun _ => ⟨text, handle⟩, fun _ => held⟩

theorem tickAgree_tSense (num : Numerics) (held : s.entryV = true) (text : u.tb = s.tb)
    (handle : u.entryH = s.entryH) : TickAgree (tSense num s) (tSense num (s.withLeftovers u)) := by
  obtain ⟨a, e, hs, ht⟩ := (ofEnv_audioRecord (samplesOf s.cfg s.cfg.tSenseMs)).same_answer
    (s := s) (t := s.withLeftovers u) rfl
  simp only [tSense, captureBody, show (s.withLeftovers u).cfg = s.cfg from rfl, hs, ht]
  split
  · cases a with
    | none => exact tickAgree_raiseFault (s := s.withEnv e) u (fun _ => ⟨text, handle⟩) _ _
    | some x =>
      exact tickAgree_senseDone (s := ((s.withEnv e).setSb x).setBb (fDemod num s.cfg x))
        (u := (u.setSb x).setBb (fDemod num s.cfg x)) held text handle rfl
  · exact tickAgree_raiseFault u (fun _ => ⟨text, handle⟩) _ _

theorem tickAgree_tXmit (num : Numerics) (held : s.entryV = true) (text : u.tb = s.tb)
    (handle : u.entryH = s.entryH) : TickAgree (tXmit num s) (tXmit num (s.withLeftovers u)) := by
  have frame : (s.withLeftovers u).tb = s.tb := text
  simp only [tXmit, xmitBody, show (s.withLeftovers u).cfg = s.cfg from rfl, frame]
  generalize fBuild s.tb = f
  generalize fMod num s.cfg f = x
  obtain ⟨a, e, hs, ht⟩ := (ofEnv_audioPlay x).same_answer
    (s := (s.setBb f).setSb x) (t := ((s.withLeftovers u).setBb f).setSb x) rfl
  rw [hs, ht]
  split
  · cases a with
    | ok => exact ⟨rfl, fun _ => ⟨text, handle⟩, fun _ => held⟩
    | fail =>
      exact tickAgree_raiseFault (s := ((s.setBb f).setSb x).withEnv e) ((u.setBb f).setSb x)
        (fun _ => ⟨text, handle⟩) _ _
  · exact tickAgree_raiseFault u (fun _ => ⟨text, handle⟩) _ _

theorem tickAgree_tRemove (handle : u.entryH = s.entryH) : TickAgree (tRemove s) (tRemove (s.withLeftovers u)) := by
  obtain ⟨a, e, hs, ht⟩ := (ofEnv_outboxRemove s.entryH).same_answer (s := s) (t := s.withLeftovers u) rfl
  simp only [tRemove, removeEntry, show (s.withLeftovers u).entryH = s.entryH from handle, hs, ht]
  cases a <;> exact ⟨rfl, nofun, False.elim⟩

theorem tickAgree_tListen (entry : s.entryV = true → u.tb = s.tb ∧ u.entryH = s.entryH) :
    TickAgree (tListen s) (tListen (s.withLeftovers u)) := by
  obtain ⟨a, e, hs, ht⟩ := (ofEnv_audioRecord (samplesOf s.cfg s.cfg.tListenMs)).same_answer
    (s := s) (t := s.withLeftovers u) rfl
  simp only [tListen, listenBody, show (s.withLeftovers u).cfg = s.cfg from rfl, hs, ht]
  cases a with
  | none => exact tickAgree_raiseFault (s := s.withEnv e) u entry _ _
  | some x => exact ⟨rfl, entry, False.elim⟩

theorem tickAgree_tEnd (entry : s.entryV = true → u.tb = s.tb ∧ u.entryH = s.entryH) :
    TickAgree (tEnd s) (tEnd (s.withLeftovers u)) := by
  refine ⟨rfl, entry, ?_⟩
  unfold tEnd
  cases s.loop <;> exact False.elim

theorem tickAgree_tGap (entry : s.entryV = true → u.tb = s.tb ∧ u.entryH = s.entryH) :
    TickAgree (tGap s) (tGap (s.withLeftovers u)) := ⟨rfl, entry, False.elim⟩

end

theorem tickAgree_sequencerStep (num : Numerics) {s t : State} (h : TickAgree s t) :
    TickAgree (sequencerStep num s) (sequencerStep num t) := by
  have phase : t.phase = s.phase := by rw [h.rest]; rfl
  obtain ⟨rest, entry, held⟩ := id h
  have needed (hp : NeedsEntry s.phase) : s.entryV = true ∧ t.tb = s.tb ∧ t.entryH = s.entryH :=
    ⟨held hp, entry (held hp)⟩
  unfold sequencerStep
  rw [phase]
  cases hp : s.phase with
  | idle | halt => exact h
  | tCheck => exact tickAgree_tCheck (congrArg clearTick rest)
  | tSense =>
    obtain ⟨v, text, handle⟩ := needed (hp ▸ trivial)
    exact rest ▸ tickAgree_tSense num v text handle
  | tXmit =>
    obtain ⟨v, text, handle⟩ := needed (hp ▸ trivial)
    exact rest ▸ tickAgree_tXmit num v text handle
  | tRemove =>
    obtain ⟨-, -, handle⟩ := needed (hp ▸ trivial)
    exact rest ▸ tickAgree_tRemove handle
  | tListen => exact rest ▸ tickAgree_tListen entry
  | tEnd => exact rest ▸ tickAgree_tEnd entry
  | tGap => exact rest ▸ tickAgree_tGap entry

theorem tickAgree_sequencerRun (num : Numerics) (k : Nat) {s t : State} (h : TickAgree s t) :
    TickAgree (sequencerRun num k s) (sequencerRun num k t) := by
  induction k generalizing s t with
  | zero => exact h
  | succ k ih => exact ih (tickAgree_sequencerStep num h)

end Sys2Proof.Machine
end

section
/-! PROOF. The statements of 10_state. -/

namespace Sys2Proof.Machine

/-- Settles O11: each effect a step can have (`StepEffect`) keeps the invariant, the sequencer's phase by phase. -/
theorem stepKeepsTheInvariant : Obligations.StepKeepsTheInvariant := by
  unfold Obligations.StepKeepsTheInvariant
  intro s t inv h
  cases stepEffect_of_step h with
  | env e => exact coreInv_withEnv inv e
  | load idle written => exact coreInv_of_idle_write inv idle written
  | command idle effect => exact coreInv_commandEffect inv idle effect
  | start idle l e => exact coreInv_startTick inv idle l e
  | sequencer _ e => exact coreInv_sequencerStep theNum (coreInv_withEnv inv e)
  | reset _ e => exact coreInv_platformReset _

/-- Settles O12: no effect of a step writes the configuration, reset included. -/
theorem stepKeepsTheConfiguration : Obligations.StepKeepsTheConfiguration := by
  unfold Obligations.StepKeepsTheConfiguration
  intro s t h
  cases stepEffect_of_step h with
  | env e => rfl
  | load _ written => exact (Kept.of_bufferWrite written).cfg
  | command _ effect => exact (Kept.of_commandEffect effect).cfg
  | start => rfl
  | sequencer _ e => exact (kept_sequencerStep theNum (s.withEnv e)).cfg
  | reset => rfl

/-- Settles O13: in HALT only the environment or a reset can be the effect of a step, and every other effect keeps the
sticky flags (`Kept`). -/
theorem onlyResetLeavesHaltOrClearsAFlag : Obligations.OnlyResetLeavesHaltOrClearsAFlag := by
  unfold Obligations.OnlyResetLeavesHaltOrClearsAFlag
  intro s t h noReset
  cases stepEffect_of_step h with
  | env e => exact ⟨id, (Kept.refl s).sticky⟩
  | load idle written => exact ⟨by simp [idle], (Kept.of_bufferWrite written).sticky⟩
  | command idle effect => exact ⟨by simp [idle], (Kept.of_commandEffect effect).sticky⟩
  | start idle => exact ⟨by simp [idle], (Kept.refl s).sticky⟩
  | sequencer running e => exact ⟨fun halt => absurd halt running, (kept_sequencerStep theNum (s.withEnv e)).sticky⟩
  | reset pending => exact absurd pending noReset

/-- Settles O15: an instruction in IDLE is its operation, whose effect is a `CommandEffect` but for TICK and RUN. -/
theorem commandsLeaveTheTickRegisters : Obligations.CommandsLeaveTheTickRegisters := by
  unfold Obligations.CommandsLeaveTheTickRegisters
  intro i s idle
  refine ⟨commandOp i s, by rw [exec_eq_whenIdle, whenIdle_idle idle], ?_⟩
  by_cases ht : i = .tick
  · subst ht
    exact ⟨rfl, rfl, rfl, rfl, fun h => absurd rfl h⟩
  by_cases hr : i = .run
  · subst hr
    exact ⟨rfl, rfl, rfl, rfl, fun _ h => absurd rfl h⟩
  obtain ⟨chanV, chan, outcome, cfg, loop, phase⟩ := (commandEffect_commandOp ht hr s).frame
  exact ⟨chanV, chan, outcome, cfg, fun _ _ => ⟨loop, idle ▸ phase⟩⟩

/-- Settles O16: the fields of STATUS are binary digits of the number it stands for. -/
theorem statusGathersTheFlags : Obligations.StatusGathersTheFlags := by
  unfold Obligations.StatusGathersTheFlags
  exact ⟨statusWord_fields, fun _ _ => step_readReg, fun _ _ _ hv => step_writeReg hv (by decide), rfl, rfl, rfl⟩

/-- Settles O60: T_CHECK makes the two runs agree (`TickAgree`), and every later step of the sequencer keeps that. -/
theorem leftoversCannotInfluenceATick : Obligations.LeftoversCannotInfluenceATick := by
  unfold Obligations.LeftoversCannotInfluenceATick
  intro num s s' k hp differ t t'
  have hp' : s'.phase = .tCheck := by rw [differ]; exact hp
  have first : TickAgree (sequencerStep num s) (sequencerStep num s') := by
    simp only [sequencerStep, hp, hp']
    exact tickAgree_tCheck (congrArg clearTick differ)
  obtain ⟨rest, entry, -⟩ : TickAgree t t' := tickAgree_sequencerRun num k first
  rw [rest]
  exact ⟨rfl, rfl, rfl, fun v => (entry v).2, rfl, rfl, rfl, rfl, rfl, ⟨rfl, rfl, rfl, rfl, rfl⟩, rfl⟩

/-- Settles O6: with no input the step is the core's own move. -/
theorem stepWithoutInputIsTheSequencers : Obligations.StepWithoutInputIsTheSequencers := by
  unfold Obligations.StepWithoutInputIsTheSequencers
  intro s hv hi
  refine ⟨fun halt => ?_, fun running => ?_, step_of_waiting hv hi⟩
  · rw [step_of_no_input hv hi, coreStep_of_halt halt]
  · rw [step_of_no_input hv hi, coreStep_of_ne_halt running]

/-- Settles O9: the state after the step is `platformReset` of the state from which the input has been taken. -/
theorem resetLeavesTheResetState : Obligations.ResetLeavesTheResetState := by
  unfold Obligations.ResetLeavesTheResetState
  intro s rest hv hi
  have waits (none : rest = []) : step (platformReset (s.withEnv { s.env with inputs := rest })) =
      .next (platformReset (s.withEnv { s.env with inputs := rest })) := step_of_waiting hv none rfl
  exact ⟨platformReset (s.withEnv { s.env with inputs := rest }), step_of_input hv hi, rfl, rfl, rfl, rfl, rfl, rfl,
    rfl, rfl, rfl, rfl, rfl, rfl, rfl, rfl, rfl, rfl, rfl, rfl, waits⟩

/-- Settles O10: the invariant holds after any reset, and the construction values have ToneRoundTrip. -/
theorem invariantHoldsAtReset : Obligations.InvariantHoldsAtReset := by
  unfold Obligations.InvariantHoldsAtReset
  exact ⟨coreInv_platformReset State.reset, (validCfg_iff _).mpr ⟨by decide +kernel, toneRoundTrip_theNum⟩⟩

/-- Settles O17, by the register map; a number that fits 32 bits is shown whole. -/
theorem registerMapByNumber : Obligations.RegisterMapByNumber := by
  unfold Obligations.RegisterMapByNumber
  intro s
  refine ⟨rfl, rfl, rfl, rfl, fun p hp hlt => ?_, registerWord_entryH, rfl, rfl, rfl,
    fun n => registerWord_of_unlisted s, rfl⟩
  rw [registerWord_of_number s p hp, toWord_of_lt hlt]

/-- Settles O18: a read only logs and counts, a write to another number than CMD only takes the input. -/
theorem registerAccessChangesNothing : Obligations.RegisterAccessChangesNothing := by
  unfold Obligations.RegisterAccessChangesNothing
  intro s n v rest hv
  refine ⟨fun hi => ⟨registerWord s n, step_readReg hv hi, ?_, fun _ => rfl⟩, step_writeReg hv⟩
  rintro rfl
  exact registerWord_entryH

/-- Settles O19: each HostLoad and HostRead is the move of its input. -/
theorem hostReachesBuffersOnlyInIdle : Obligations.HostReachesBuffersOnlyInIdle := by
  unfold Obligations.HostReachesBuffersOnlyInIdle
  intro s rest hv
  exact ⟨fun _ => step_of_input hv, fun _ => step_of_input hv, fun _ => step_of_input hv, step_of_input hv,
    step_of_input hv, step_of_input hv⟩

end Sys2Proof.Machine
end

section
/-! SUPPORT. Laws for the statements of 20_memory: bytes as their 8 bits and back (R60 to R62). -/

namespace Sys2Proof.Machine

/-! ## Bytes to bits -/

theorem byteBits_getElem? (v : Byte) {j : Nat} (hj : j < 8) : (byteBits v)[j]? = some (v.getLsbD (7 - j)) := by
  interval_cases j <;> rfl

theorem fUnpack_getElem? (bytes : Text) (j : Nat) :
    (fUnpack bytes)[j]? = (bytes[j / 8]?).map fun v => v.getLsbD (7 - j % 8) := by
  induction bytes generalizing j with
  | nil => rfl
  | cons v bytes ih =>
    rw [fUnpack_cons]
    by_cases hj : j < 8
    · rw [List.getElem?_append_left hj, byteBits_getElem? v hj, Nat.div_eq_of_lt hj, Nat.mod_eq_of_lt hj]
      rfl
    · obtain ⟨k, rfl⟩ := Nat.exists_eq_add_of_le (Nat.le_of_not_lt hj)
      rw [List.getElem?_append_right (Nat.le_add_right 8 k), byteBits_length, Nat.add_sub_cancel_left, ih,
        Nat.add_div_left k (by decide), Nat.add_mod_left]
      rfl

/-! ## Bits as the digits of a number -/

@[simp] theorem bitsNat_nil : bitsNat [] = 0 := rfl

/-- The last bit is the digit of weight 1. -/
theorem bitsNat_concat (bits : Bitstream) (b : Bit) : bitsNat (bits ++ [b]) = Nat.bit b (bitsNat bits) := by
  cases b <;> simp [bitsNat, bitNat, Nat.bit]

theorem bitsNat_lt (bits : Bitstream) : bitsNat bits < 2 ^ bits.length := by
  induction bits using List.reverseRecOn with
  | nil => decide
  | append_singleton bits b ih =>
    rw [bitsNat_concat, List.length_append, List.length_singleton]
    exact Nat.bit_lt_two_pow_succ_iff.mpr ih

/-- Binary digit `i` of the number is bit `i` from the end. -/
theorem testBit_bitsNat (bits : Bitstream) (i : Nat) : (bitsNat bits).testBit i = bits.reverse.getD i false := by
  induction bits using List.reverseRecOn generalizing i with
  | nil => simp
  | append_singleton bits b ih =>
    rw [bitsNat_concat, List.reverse_concat]
    cases i with
    | zero => exact Nat.testBit_bit_zero b _
    | succ i => exact (Nat.testBit_bit_succ _ b _).trans (ih i)

/-- 41_frame_primitives R141: the number as the sum of its digits. -/
theorem bitsNat_eq_sum (bits : Bitstream) :
    bitsNat bits = ∑ j ∈ Finset.range bits.length, (bits.getD j false).toNat * 2 ^ (bits.length - 1 - j) := by
  induction bits using List.reverseRecOn with
  | nil => rfl
  | append_singleton bits b ih =>
    have shifted : ∀ j ∈ Finset.range bits.length,
        ((bits ++ [b]).getD j false).toNat * 2 ^ (bits.length - j)
          = 2 * ((bits.getD j false).toNat * 2 ^ (bits.length - 1 - j)) := by
      intro j hj
      have hj : j < bits.length := Finset.mem_range.mp hj
      rw [List.getD_append _ _ _ _ hj, show bits.length - j = bits.length - 1 - j + 1 by omega]
      ring
    rw [bitsNat_concat, Nat.bit_val, ih, List.length_append, List.length_singleton, Finset.sum_range_succ,
      Nat.add_sub_cancel, Finset.sum_congr rfl shifted, ← Finset.mul_sum]
    simp

/-! ## Eight bits to a byte -/

theorem byteOfBits_toNat {bits : Bitstream} (h : bits.length = 8) : (byteOfBits bits).toNat = bitsNat bits := by
  have := bitsNat_lt bits
  rw [h] at this
  exact Nat.mod_eq_of_lt this

/-- Bit `j` of the 8 is bit `7 - j` of the byte (20_memory R60). -/
theorem byteOfBits_getLsbD {bits : Bitstream} (h : bits.length = 8) {j : Nat} (hj : j < 8) :
    (byteOfBits bits).getLsbD (7 - j) = bits.getD j false := by
  rw [BitVec.getLsbD, byteOfBits_toNat h, testBit_bitsNat, List.getD_eq_getElem?_getD, List.getElem?_reverse (by omega),
    List.getD_eq_getElem?_getD, h, show 8 - 1 - (7 - j) = j by omega]

theorem byteOfBits_byteBits (v : Byte) : byteOfBits (byteBits v) = v := by
  refine BitVec.eq_of_getLsbD_eq fun i hi => ?_
  obtain ⟨j, hj, rfl⟩ : ∃ j < 8, i = 7 - j := ⟨7 - i, by omega, by omega⟩
  rw [byteOfBits_getLsbD (byteBits_length v) hj, List.getD_eq_getElem?_getD, byteBits_getElem? v hj, Option.getD_some]

/-! ## Bits to bytes -/

theorem fPack_append {x : Bitstream} (h : x.length = 8) (xs : Bitstream) :
    fPack (x ++ xs) = byteOfBits x :: fPack xs := by
  rw [fPack, chunks_append (by decide) h]
  rfl

/-- The 8 bits that make byte `i` (20_memory R62). -/
def octet (bits : Bitstream) (i : Nat) : Bitstream := (bits.drop (i * 8)).take 8

theorem octet_length {bits : Bitstream} {i : Nat} (h : i < bits.length / 8) : (octet bits i).length = 8 := by
  simp only [octet, List.length_take, List.length_drop]
  omega

theorem octet_getElem? (bits : Bitstream) (i : Nat) {j : Nat} (hj : j < 8) : (octet bits i)[j]? = bits[8 * i + j]? := by
  rw [octet, List.getElem?_take_of_lt hj, List.getElem?_drop, Nat.mul_comm]

theorem octet_getD (bits : Bitstream) (i : Nat) {j : Nat} (hj : j < 8) :
    (octet bits i).getD j false = bits.getD (8 * i + j) false := by
  simp only [List.getD_eq_getElem?_getD, octet_getElem? bits i hj]

theorem fPack_getElem? {bits : Bitstream} {i : Nat} (h : i < bits.length / 8) :
    (fPack bits)[i]? = some (byteOfBits (octet bits i)) := by
  simp [fPack, chunks, octet, h]

theorem fPack_fUnpack (bytes : Text) : fPack (fUnpack bytes) = bytes := by
  induction bytes with
  | nil => rfl
  | cons v bytes ih => rw [fUnpack_cons, fPack_append (byteBits_length v), byteOfBits_byteBits, ih]

theorem fUnpack_fPack (bits : Bitstream) : fUnpack (fPack bits) = bits.take (8 * (bits.length / 8)) := by
  refine List.ext_getElem? fun j => ?_
  rw [fUnpack_getElem?]
  by_cases hj : j < 8 * (bits.length / 8)
  · have hi : j / 8 < bits.length / 8 := by omega
    have hr : j % 8 < 8 := Nat.mod_lt j (by decide)
    have hb : j < bits.length := by omega
    rw [fPack_getElem? hi, Option.map_some, byteOfBits_getLsbD (octet_length hi) hr, octet_getD bits _ hr,
      Nat.div_add_mod, List.getElem?_take_of_lt hj, List.getD_eq_getElem _ _ hb, List.getElem?_eq_getElem hb]
  · rw [List.getElem?_eq_none (by rw [fPack_length]; omega), List.getElem?_eq_none (by rw [List.length_take]; omega)]
    rfl

end Sys2Proof.Machine
end

section
/-! SUPPORT. Laws for the statements of 20_memory: the answer of each device call and the state after it, pending or
not (R70 to R73). -/

namespace Sys2Proof.Machine

theorem nextRecord_eq (s : State) : nextRecord s = (s.env.records.head?.getD (Config.freeRecord s.env.draws),
    { s with env := { s.env with records := s.env.records.tail, draws := s.env.draws + 1 } }) := by
  cases h : s.env.records with
  | cons r rest => exact nextRecord_pending h
  | nil => simp [nextRecord, h]

theorem nextPlay_eq (s : State) : nextPlay s = (s.env.plays.head?.getD (Config.freePlay s.env.draws),
    { s with env := { s.env with plays := s.env.plays.tail, draws := s.env.draws + 1 } }) := by
  cases h : s.env.plays with
  | cons r rest => exact nextPlay_pending h
  | nil => simp [nextPlay, h]

theorem nextFirst_eq (s : State) : nextFirst s = (s.env.firsts.head?.getD (Config.freeFirst s.env.draws),
    { s with env := { s.env with firsts := s.env.firsts.tail, draws := s.env.draws + 1 } }) := by
  cases h : s.env.firsts with
  | cons r rest => exact nextFirst_pending h
  | nil => simp [nextFirst, h]

theorem nextRemove_eq (s : State) : nextRemove s = (s.env.removes.head?.getD (Config.freeRemove s.env.draws),
    { s with env := { s.env with removes := s.env.removes.tail, draws := s.env.draws + 1 } }) := by
  cases h : s.env.removes with
  | cons r rest => exact nextRemove_pending h
  | nil => simp [nextRemove, h]

end Sys2Proof.Machine
end

section
/-! PROOF. The statements of 20_memory. -/

namespace Sys2Proof.Machine

/-- Settles O21: each byte becomes its 8 bits, so bit `j` lies in byte `j / 8` at place `j % 8` from the left. -/
theorem unpackIsMostSignificantBitFirst : Obligations.UnpackIsMostSignificantBitFirst := by
  unfold Obligations.UnpackIsMostSignificantBitFirst
  exact fun bytes => ⟨fUnpack_length bytes, fun j _ => fUnpack_getElem? bytes j⟩

/-- Settles O22: byte `i` is the number whose digits are its 8 bits (`bitsNat_eq_sum`); that byte has those bits again
(`byteOfBits_getLsbD`), which gives both inverse laws. -/
theorem packInvertsUnpack : Obligations.PackInvertsUnpack := by
  unfold Obligations.PackInvertsUnpack
  refine ⟨fPack_length, fun bits i hi => ?_, fPack_fUnpack, fUnpack_fPack⟩
  rw [fPack_getElem? hi, Option.map_some, byteOfBits_toNat (octet_length hi), bitsNat_eq_sum, octet_length hi]
  refine congrArg some (Finset.sum_congr rfl fun j hj => ?_)
  rw [octet_getD bits i (Finset.mem_range.mp hj)]

/-- Settles O14, by the law of each call. -/
theorem deviceAnswersArePendingOrFree : Obligations.DeviceAnswersArePendingOrFree := by
  unfold Obligations.DeviceAnswersArePendingOrFree
  exact fun s => ⟨nextRecord_eq s, nextPlay_eq s, nextFirst_eq s, nextRemove_eq s⟩

end Sys2Proof.Machine
end

section
/-! SUPPORT. Laws for the statements of 30_encoding: the rows of the opcode table, seen from an instruction and from a
command word (R94 to R97). -/

namespace Sys2Proof.Machine

open Laws.EncodeFields (immWidth)

/-! ## The immediate of a row -/

/-- The fields of every command word, from the law of each instruction. -/
theorem encodeFields (i : Instr) : Laws.EncodeFields.Statement i := by
  cases i with
  | encbit b => exact Laws.EncodeFields.encbit b
  | decbit => exact Laws.EncodeFields.decbit
  | mod => exact Laws.EncodeFields.mod
  | demod => exact Laws.EncodeFields.demod
  | unpack => exact Laws.EncodeFields.unpack
  | pack => exact Laws.EncodeFields.pack
  | renc => exact Laws.EncodeFields.renc
  | rdec => exact Laws.EncodeFields.rdec
  | crc8 => exact Laws.EncodeFields.crc8
  | fsync => exact Laws.EncodeFields.fsync
  | build => exact Laws.EncodeFields.build
  | parse => exact Laws.EncodeFields.parse
  | classify => exact Laws.EncodeFields.classify
  | sense ms => exact Laws.EncodeFields.sense ms
  | decideAct hasEntry chan => exact Laws.EncodeFields.decideAct hasEntry chan
  | chkout => exact Laws.EncodeFields.chkout
  | xmit => exact Laws.EncodeFields.xmit
  | remove => exact Laws.EncodeFields.remove
  | listen ms => exact Laws.EncodeFields.listen ms
  | tick => exact Laws.EncodeFields.tick
  | run => exact Laws.EncodeFields.run
  | recv ms => exact Laws.EncodeFields.recv ms

/-- The instruction in the row of `i` whose operand is read from IMM (30_encoding R95, R96). -/
def withOperand (i : Instr) (imm : BitVec 24) : Instr :=
  match i with
  | .encbit _ => .encbit (imm.getLsbD 0)
  | .decideAct _ _ => .decideAct (imm.getLsbD 0) (chanOfBit (imm.getLsbD 1))
  | .sense _ => .sense imm.toNat
  | .listen _ => .listen imm.toNat
  | .recv _ => .recv imm.toNat
  | .decbit | .mod | .demod | .unpack | .pack | .renc | .rdec | .crc8 | .fsync | .build | .parse | .classify
  | .chkout | .xmit | .remove | .tick | .run => i

/-- A duration below 2^24 is its own immediate (30_encoding R95). -/
theorem toNat_ofNat_of_immFits {ms : Nat} (h : immFits ms = true) : (BitVec.ofNat 24 ms).toNat = ms :=
  Nat.mod_eq_of_lt (of_decide_eq_true h)

/-- No operand is lost in the immediate of a well-formed instruction. -/
theorem withOperand_imm {i : Instr} (h : i.wellFormed = true) : withOperand i i.imm = i := by
  cases i with
  | encbit b => cases b <;> rfl
  | decideAct hasEntry chan => cases hasEntry <;> cases chan <;> rfl
  | sense ms => exact congrArg Instr.sense (toNat_ofNat_of_immFits h)
  | listen ms => exact congrArg Instr.listen (toNat_ofNat_of_immFits h)
  | recv ms => exact congrArg Instr.recv (toNat_ofNat_of_immFits h)
  | _ => rfl

/-- No bit of an immediate within the width of the row is lost in the operand. -/
theorem imm_withOperand {i : Instr} {imm : BitVec 24} (h : imm.toNat < 2 ^ immWidth i) :
    (withOperand i imm).imm = imm := by
  have self (v : BitVec 24) : BitVec.ofNat 24 v.toNat = v := (BitVec.ofNat_toNat 24 v).trans (BitVec.setWidth_eq v)
  obtain ⟨n, rfl, hn⟩ : ∃ n, imm = BitVec.ofNat 24 n ∧ n < 2 ^ immWidth i := ⟨imm.toNat, (self imm).symm, h⟩
  cases i with
  | encbit b =>
    change n < 2 at hn
    interval_cases n <;> rfl
  | decideAct hasEntry chan =>
    change n < 4 at hn
    interval_cases n <;> rfl
  | sense ms | listen ms | recv ms => exact self _
  | _ =>
    change n < 1 at hn
    obtain rfl : n = 0 := by omega
    rfl

theorem wellFormed_withOperand (i : Instr) (imm : BitVec 24) : (withOperand i imm).wellFormed = true := by
  cases i with
  | sense ms | listen ms | recv ms => exact decide_eq_true imm.isLt
  | _ => rfl

/-! ## The decoder -/

/-- The reserved bits of IMM are 0 exactly when it is a number of the width below them. -/
theorem ushiftRight_eq_zero_iff_lt (imm : BitVec 24) (low : Nat) : imm >>> low = 0 ↔ imm.toNat < 2 ^ low := by
  rw [← BitVec.toNat_inj, BitVec.toNat_ushiftRight, Nat.shiftRight_eq_div_pow]
  simp

theorem withReserved_of_lt (op : BitVec 8) {imm : BitVec 24} {low : Nat} (h : imm.toNat < 2 ^ low) (i : Instr) :
    withReserved op imm low i = .ok i := if_pos ((ushiftRight_eq_zero_iff_lt imm low).mpr h)

theorem withReserved_eq_ok {op : BitVec 8} {imm : BitVec 24} {low : Nat} {i j : Instr}
    (h : withReserved op imm low i = .ok j) : imm.toNat < 2 ^ low ∧ i = j := by
  unfold withReserved at h
  split at h
  next reserved =>
    cases h
    exact ⟨(ushiftRight_eq_zero_iff_lt imm low).mp reserved, rfl⟩
  next => cases h

/-- The row of an instruction, for whatever immediate. -/
theorem decodeFields_opcode (i : Instr) (imm : BitVec 24) :
    decodeFields i.opcode imm = withReserved i.opcode imm (immWidth i) (withOperand i imm) := by
  cases i with
  | sense ms | listen ms | recv ms => exact (withReserved_of_lt _ imm.isLt _).symm
  | _ => rfl

/-- An accepted word has the opcode of its instruction. -/
theorem opcode_of_decodeFields {op : BitVec 8} {imm : BitVec 24} {i : Instr} (h : decodeFields op imm = .ok i) :
    i.opcode = op := by
  have row {low : Nat} {r : Instr} (hr : withReserved op imm low r = .ok i) (hop : op.toNat = r.opcode.toNat) :
      i.opcode = op := by
    obtain ⟨-, rfl⟩ := withReserved_eq_ok hr
    exact BitVec.eq_of_toNat_eq hop.symm
  unfold decodeFields at h
  split at h
  -- SENSE, LISTEN and RECV have no reserved bits.
  case h_14 hop | h_19 hop | h_22 hop =>
    cases h
    exact BitVec.eq_of_toNat_eq hop.symm
  case h_23 => cases h
  all_goals exact row h ‹_›

@[simp] theorem decode_append (op : BitVec 8) (imm : BitVec 24) : decode (op ++ imm) = decodeFields op imm := by
  simp [decode]

theorem decode_encode {i : Instr} (h : i.wellFormed = true) : decode (encode i) = .ok i := by
  obtain ⟨hop, himm, width⟩ := encodeFields i
  rw [decode, hop, himm, decodeFields_opcode, withReserved_of_lt _ width, withOperand_imm h]

/-- A word is its two fields (30_encoding R94). -/
theorem opField_append_immField (w : Word) : opField w ++ immField w = w :=
  (BitVec.extractLsb'_append_extractLsb'_eq_extractLsb' (start₁ := 0) (len₁ := 24) rfl).trans
    BitVec.extractLsb'_eq_self

theorem encode_of_decode {w : Word} {i : Instr} (h : decode w = .ok i) : encode i = w ∧ i.wellFormed = true := by
  have hop : i.opcode = opField w := opcode_of_decodeFields h
  rw [decode, ← hop, decodeFields_opcode] at h
  obtain ⟨width, operand⟩ := withReserved_eq_ok h
  have himm : i.imm = immField w := by rw [← imm_withOperand width, operand]
  refine ⟨?_, operand ▸ wellFormed_withOperand i (immField w)⟩
  rw [encode, hop, himm, opField_append_immField]

/-! ## Illegal words -/

/-- The OP values of no row (30_encoding R97). -/
theorem decodeFields_of_unassigned {op : BitVec 8} (imm : BitVec 24)
    (h : op.toNat = 0x00 ∨ (0x05 ≤ op.toNat ∧ op.toNat ≤ 0x0F) ∨ (0x15 ≤ op.toNat ∧ op.toNat ≤ 0x17)
      ∨ (0x1B ≤ op.toNat ∧ op.toNat ≤ 0x1F) ∨ (0x22 ≤ op.toNat ∧ op.toNat ≤ 0x2F)
      ∨ (0x37 ≤ op.toNat ∧ op.toNat ≤ 0x3F) ∨ 0x41 ≤ op.toNat) :
    decodeFields op imm = .error (.unassignedOpcode op) := by
  unfold decodeFields
  split
  case h_23 => rfl
  all_goals omega

/-- The reserved bits of a row are those above its width. -/
theorem reservedAbove_immWidth (i : Instr) : ReservedAbove i.opcode (immWidth i) := fun imm himm => by
  rw [decode_append, decodeFields_opcode, withReserved, if_neg himm]

/-- The operations that take no immediate (30_encoding R95), in the order of the table. -/
def operandFree : List Instr :=
  [.decbit, .mod, .demod, .unpack, .pack, .renc, .rdec, .crc8, .fsync, .build, .parse, .classify, .chkout, .xmit,
    .remove, .tick, .run]

theorem immWidth_of_operandFree : ∀ i ∈ operandFree, immWidth i = 0 := by decide

theorem reservedAbove_of_operandFree : ∀ op ∈ operandFree.map Instr.opcode, ReservedAbove op 0 := by
  simp only [List.forall_mem_map]
  exact fun i hi => immWidth_of_operandFree i hi ▸ reservedAbove_immWidth i

/-- The core's own refusal of an illegal word (30_encoding R97). -/
theorem rejectIllegal_of_idle {s : State} (h : s.phase = .idle) : rejectIllegal s = .next (refuse .illegalOp s) :=
  whenIdle_idle h _

/-! ## The step of a command -/

theorem step_of_command {s : State} {w : Word} {rest : List Input} (h : validCfg s.cfg = true)
    (hi : s.env.inputs = .writeReg 0 w :: rest) :
    step s = runMove (.command w (s.withEnv { s.env with inputs := rest })) := step_of_input h hi

theorem step_of_encoded {s : State} {i : Instr} {rest : List Input} (h : validCfg s.cfg = true)
    (wf : i.wellFormed = true) (hi : s.env.inputs = .writeReg 0 (encode i) :: rest) :
    step s = exec i (s.withEnv { s.env with inputs := rest }) := by
  rw [step_of_command h hi, runMove_command_ok (decode_encode wf)]

theorem step_of_illegal {s : State} {w : Word} {e : DecodeError} {rest : List Input} (h : validCfg s.cfg = true)
    (hi : s.env.inputs = .writeReg 0 w :: rest) (hw : decode w = .error e) :
    step s = rejectIllegal (s.withEnv { s.env with inputs := rest }) := by
  rw [step_of_command h hi, runMove_command_error hw]

end Sys2Proof.Machine
end

section
/-! SUPPORT. Laws for the statements of 30_encoding: the places of a frame (R90), and what PARSE and RECV leave alone
(R101). -/

namespace Sys2Proof.Machine

/-! ## The places of a frame -/

theorem syncword_getElem? : ∀ i < 16, syncword[i]? = some (decide (i % 2 = 0)) := by decide

theorem fBuild_getElem?_of_lt (text : Text) {i : Nat} (h : i < 16) :
    (fBuild text)[i]? = some (decide (i % 2 = 0)) := by
  rw [fBuild, List.getElem?_append_left h, syncword_getElem? i h]

theorem fBuild_getElem?_payload (text : Text) (i : Nat) {j : Nat} (hj : j < 8) :
    (fBuild text)[16 + 8 * i + j]? = ((payloadBytes text)[i]?).map fun v => v.getLsbD (7 - j) := by
  have sync : syncword.length = 16 := rfl
  rw [fBuild, List.getElem?_append_right (by omega), fUnpack_getElem?, sync,
    show (16 + 8 * i + j - 16) / 8 = i by omega, show (16 + 8 * i + j - 16) % 8 = j by omega]

/-! ## What PARSE and RECV leave alone -/

/-- PARSE writes TB and the result registers. -/
theorem parseOp_eq (s : State) : ∃ tb cause, parseOp s = (s.setTb tb).setRes cause 0#32 := by
  have deliver_eq (cause : Cause) (payload : Text) :
      ∃ tb cause', deliver cause payload s = (s.setTb tb).setRes cause' 0#32 := by
    unfold deliver
    split
    · exact ⟨payload, cause, rfl⟩
    · exact ⟨s.tb, .badOperand, rfl⟩
  unfold parseOp
  cases fParse s.bb with
  | ok p => exact deliver_eq .ok p
  | crcMismatch p => exact deliver_eq .crcMismatch p
  | syncNotFound => exact ⟨[], .syncNotFound, rfl⟩
  | malformedEncoding => exact ⟨[], .malformedEncoding, rfl⟩

/-- RECV leaves the configuration and the pending inputs alone, and the phase too unless the capture failed. -/
theorem recvOp_frame (num : Numerics) (ms : Nat) (s : State) :
    (recvOp num ms s).cfg = s.cfg ∧ (recvOp num ms s).env.inputs = s.env.inputs
      ∧ ((recvOp num ms s).phase = s.phase
        ∨ ((recvOp num ms s).phase = .halt ∧ (recvOp num ms s).faultCapture = true)) := by
  rcases recvBody_cases num ms s with ⟨x, env, e, -, -, -, -, -, hi⟩ | ⟨env, e, -, hi⟩ | ⟨env, e, -, hi⟩ <;>
    rw [recvOp, e, endCommand]
  · obtain ⟨tb, cause, parsed⟩ := parseOp_eq { s with sb := x, bb := fDemod num s.cfg x, env := env }
    rw [parsed]
    exact ⟨rfl, hi, .inl rfl⟩
  · exact ⟨rfl, hi, .inl rfl⟩
  · exact ⟨rfl, hi, .inr ⟨rfl, rfl⟩⟩

/-! ## The steps of SEND and RECEIVE -/

theorem step_readTb {s : State} {rest : List Input} (h : validCfg s.cfg = true) (hi : s.env.inputs = .readTb :: rest) :
    step s = hostRead (s.withEnv { s.env with inputs := rest }) (.tbRead s.tb) := step_of_input h hi

/-- SEND (30_encoding R101): TB is loaded, and XMIT runs on that state. -/
theorem steps_of_send {s : State} {text : Text} {rest : List Input} (h : validCfg s.cfg = true) (idle : s.phase = .idle)
    (room : fits s.cfg.tbCap text.length = true) (hi : s.env.inputs = sendInputs text ++ rest) :
    ∃ t, step s = .next t ∧ step t = exec .xmit { s with tb := text, env := { s.env with inputs := rest } } :=
  ⟨(s.withEnv { s.env with inputs := .writeReg 0 (encode .xmit) :: rest }).setTb text,
    (step_of_input h hi).trans (if_pos ⟨idle, room⟩), step_of_encoded (i := .xmit) h rfl rfl⟩

/-- The first step of RECEIVE (30_encoding R101) is RECV on the state from which its input has been taken. -/
theorem step_of_receive {s : State} {ms : Nat} {rest : List Input} (h : validCfg s.cfg = true)
    (hms : ms < 2 ^ 24) (hi : s.env.inputs = receiveInputs ms ++ rest) :
    step s = exec (.recv ms) (s.withEnv { s.env with inputs := .readTb :: rest }) :=
  step_of_encoded (i := .recv ms) h (decide_eq_true hms) hi

end Sys2Proof.Machine
end

section
/-! PROOF. The statements of 30_encoding. -/

namespace Sys2Proof.Machine

/-- Settles O1: the word's fields are the row's opcode and an immediate within the row's width, from which the decoder
reads the operand back (`withOperand_imm`). -/
theorem decodeOfEncodeIsTheInstruction : Obligations.DecodeOfEncodeIsTheInstruction := by
  unfold Obligations.DecodeOfEncodeIsTheInstruction
  exact fun _ => decode_encode

/-- Settles O2: an accepted word has its instruction's opcode, and its immediate, within the row's width, is that of
the operand read from it (`imm_withOperand`). -/
theorem encodeOfDecodeIsTheWord : Obligations.EncodeOfDecodeIsTheWord := by
  unfold Obligations.EncodeOfDecodeIsTheWord
  exact fun _ _ => encode_of_decode

/-- Settles O4: an OP of no row, a bit above the row's width, and the core's own refusal in IDLE. -/
theorem illegalCommandWordsAreRefused : Obligations.IllegalCommandWordsAreRefused := by
  unfold Obligations.IllegalCommandWordsAreRefused
  refine ⟨fun w => decodeFields_of_unassigned (immField w), reservedAbove_immWidth (.encbit false),
    reservedAbove_immWidth (.decideAct false .free), reservedAbove_of_operandFree, fun s w e rest hv idle hi hw => ?_⟩
  exact (step_of_illegal hv hi hw).trans (rejectIllegal_of_idle idle)

/-- Settles O26: the first 16 places lie in SYNCWORD, and place 16 + 8 i + j is bit `7 - j` of payload byte `i`. -/
theorem frameLayoutIsBitExact : Obligations.FrameLayoutIsBitExact := by
  unfold Obligations.FrameLayoutIsBitExact
  refine fun text => ⟨fun i => fBuild_getElem?_of_lt text, fun i j hj _ => fBuild_getElem?_payload text i hj, ?_,
    fBuild_length text⟩
  rw [fRenc_length, List.length_append, List.length_singleton]

/-- Settles O3: the decoder computes on each of the sixteen words. -/
theorem specWordsDecodeToTheirOperations : Obligations.SpecWordsDecodeToTheirOperations := by
  unfold Obligations.SpecWordsDecodeToTheirOperations
  exact ⟨rfl, rfl, rfl, rfl, rfl, rfl, rfl, rfl, rfl, rfl, rfl, rfl, rfl, rfl, rfl, rfl⟩

/-- Settles O5: the move of a CMD write is its word on the state from which the write has been taken. -/
theorem stepRunsTheDecodedCommand : Obligations.StepRunsTheDecodedCommand := by
  unfold Obligations.StepRunsTheDecodedCommand
  intro s w rest hv hi
  refine ⟨fun i hw => ?_, fun e => step_of_illegal hv hi⟩
  rw [step_of_command hv hi, runMove_command_ok hw]
  rfl

/-- Settles O20: RECV keeps the input after it, and the phase unless the capture failed (`recvOp_frame`), so HREAD
finds the core in IDLE or in HALT. -/
theorem sendReceiveAndMarkers : Obligations.SendReceiveAndMarkers := by
  unfold Obligations.SendReceiveAndMarkers
  refine ⟨fun s text rest => steps_of_send, fun s ms rest hv idle hms hi => ?_, rfl, rfl, rfl, rfl⟩
  let u := s.withEnv { s.env with inputs := .readTb :: rest }
  have recv : exec (.recv ms) u = .next (recvOp theNum ms u) := whenIdle_idle (s := u) idle _
  obtain ⟨cfg, inputs, phase⟩ := recvOp_frame theNum ms u
  have read := step_readTb (s := recvOp theNum ms u) (cfg ▸ hv) inputs
  refine ⟨recvOp theNum ms u, (step_of_receive hv hms hi).trans recv, recv, fun hp => ?_, fun hp => ?_⟩
  · rw [read]
    exact if_pos hp
  · obtain ⟨halt, fault⟩ := phase.resolve_left fun kept => hp (kept.trans idle)
    exact ⟨halt, fault, read.trans (if_neg hp)⟩

end Sys2Proof.Machine
end

section
/-! SUPPORT. Laws for the statements of 40_tonecodec: tones, the decision of F_DECBIT, the slices of a modulated
sequence, and the discrete Fourier transform of a tone on a bin. -/

namespace Sys2Proof.Machine

/-! ## Tones (R121) -/

@[simp] theorem toneFreq_true (c : Cfg) : toneFreq c true = c.fMark := rfl

@[simp] theorem toneFreq_false (c : Cfg) : toneFreq c false = c.fSpace := rfl

theorem fEncbit_getElem? (num : Numerics) (c : Cfg) (b : Bit) {n : Nat} (hn : n < chunkLen c) :
    (fEncbit num c b)[n]? = some (num.tone c (toneFreq c b) n) := by
  simp [fEncbit, hn]

/-- As `ExactNum.map_fEncbit`, from the tones alone: a numerics may read chunks as it likes. -/
theorem map_fEncbit_of_exact_tones {num : Numerics} {c : Cfg}
    (h : ∀ f n, sampleValue (num.tone c f n) = exactTone c f n) (b : Bit) :
    (fEncbit num c b).map sampleValue = exactEncbit c b := by
  simp [fEncbit, exactEncbit, h]

theorem exactTone_eq (c : Cfg) (f n : ℕ) : exactTone c f n = 1 / 2 * Real.sin (2 * Real.pi * f * n / c.fs) := by
  simp [exactTone, toneAmp, Rat.mkRat_eq_div]

@[simp] theorem exactTone_zero (c : Cfg) (f : ℕ) : exactTone c f 0 = 0 := by simp [exactTone]

/-- A tone stays within half of full scale. -/
theorem exactTone_mem_Icc (c : Cfg) (f n : ℕ) : exactTone c f n ∈ Set.Icc (-(1 / 2) : ℝ) (1 / 2) := by
  have low := Real.neg_one_le_sin (2 * Real.pi * f * n / c.fs)
  have high := Real.sin_le_one (2 * Real.pi * f * n / c.fs)
  rw [exactTone_eq]
  constructor <;> linarith

@[simp] theorem exactEncbit_length (c : Cfg) (b : Bit) : (exactEncbit c b).length = chunkLen c := by
  simp [exactEncbit]

theorem exactEncbit_getElem? (c : Cfg) (b : Bit) {n : Nat} (hn : n < chunkLen c) :
    (exactEncbit c b)[n]? = some (exactTone c (toneFreq c b) n) := by
  simp [exactEncbit, hn]

/-! ## The decision (R124) -/

/-- The tests of F_DECBIT on two band magnitudes and a threshold of any linear order. -/
def decisionOf {α : Type} [LinearOrder α] (m s t : α) : Option Bit :=
  if m > s ∧ m > t then some true else if s > t then some false else none

theorem fDecbit_eq_decisionOf (num : Numerics) (c : Cfg) (x : List Sample) :
    fDecbit num c x = decisionOf (num.bandmag c x c.fMark) (num.bandmag c x c.fSpace) c.thresh := rfl

theorem exactDecbit_eq_decisionOf (c : Cfg) (x : List ℝ) :
    exactDecbit c x = decisionOf (bandMagnitude c x c.fMark) (bandMagnitude c x c.fSpace) (c.thresh : ℝ) := rfl

section
variable {α : Type} [LinearOrder α] {m s t : α}

theorem decisionOf_mark (hs : s < m) (ht : t < m) : decisionOf m s t = some true := if_pos ⟨hs, ht⟩

theorem decisionOf_space (hm : m ≤ s) (ht : t < s) : decisionOf m s t = some false := by
  rw [decisionOf, if_neg fun h => hm.not_gt h.1, if_pos ht]

theorem decisionOf_undetermined (hm : m ≤ t) (hs : s ≤ t) : decisionOf m s t = none := by
  rw [decisionOf, if_neg fun h => hm.not_gt h.2, if_neg hs.not_gt]

/-- The seven rows of the case table. -/
theorem decisionOf_table (m s t : α) :
    (m > s → m > t → decisionOf m s t = some true) ∧ (m > s → m ≤ t → decisionOf m s t = none)
    ∧ (m = s → s > t → decisionOf m s t = some false) ∧ (m = s → s ≤ t → decisionOf m s t = none)
    ∧ (m < s → s > t → decisionOf m s t = some false) ∧ (m < s → s ≤ t → decisionOf m s t = none)
    ∧ (m = t → s < m → decisionOf m s t = none) :=
  ⟨decisionOf_mark, fun hs ht => decisionOf_undetermined ht (hs.le.trans ht),
    fun hm => decisionOf_space hm.le, fun hm ht => decisionOf_undetermined (hm.le.trans ht) ht,
    fun hm => decisionOf_space hm.le, fun hm ht => decisionOf_undetermined (hm.le.trans ht) ht,
    fun ht hs => decisionOf_undetermined ht.le (hs.le.trans ht.le)⟩

end

/-! ## Modulation and demodulation (R127, R128) -/

/-- Sample `j * N + n` of a modulated sequence is sample `n` of the tone of bit `j`. -/
theorem fMod_getElem? (num : Numerics) (c : Cfg) (bits : Bitstream) (j : Nat) {n : Nat} (hn : n < chunkLen c) :
    (fMod num c bits)[j * chunkLen c + n]? = (bits[j]?).bind fun b => (fEncbit num c b)[n]? := by
  induction bits generalizing j with
  | nil => simp
  | cons b bits ih =>
    cases j with
    | zero => simp [List.getElem?_append_left, hn]
    | succ j =>
      rw [fMod_cons, List.getElem?_append_right (by simp [Nat.succ_mul]; omega), List.getElem?_cons_succ, ← ih j]
      congr 1
      simp [Nat.succ_mul]
      omega

theorem fDemod_eq_reduceOption (num : Numerics) (c : Cfg) (x : List Sample) :
    fDemod num c x = ((List.range (x.length / chunkLen c)).map fun j =>
        fDecbit num c ((x.drop (j * chunkLen c)).take (chunkLen c))).reduceOption := by
  simp [fDemod, chunks, List.reduceOption, List.filterMap_map]

theorem fDemod_of_length_lt (num : Numerics) {c : Cfg} {x : List Sample} (h : x.length < chunkLen c) :
    fDemod num c x = [] := by
  rw [fDemod, chunks_of_lt h, List.filterMap_nil]

/-- ToneRoundTrip, said of either bit. -/
theorem ToneRoundTrip.fDecbit_fEncbit {num : Numerics} {c : Cfg} (h : ToneRoundTrip num c) (b : Bit) :
    fDecbit num c (fEncbit num c b) = some b := by
  cases b with
  | true => exact h.1
  | false => exact h.2

theorem ToneRoundTrip.fDemod_fMod {num : Numerics} {c : Cfg} (h : ToneRoundTrip num c) (hn : 0 < chunkLen c)
    (bits : Bitstream) : fDemod num c (fMod num c bits) = bits := by
  induction bits with
  | nil => simp
  | cons b bits ih =>
    rw [fMod_cons, fDemod_append _ hn (fEncbit_length num c b), h.fDecbit_fEncbit, ih]
    rfl

/-! ## The transform of a tone on a bin (R126) -/

/-- The geometric sum over a whole number of turns: `N` where every term is 1, and 0 elsewhere. -/
theorem sum_zpow_mul_range {ζ : ℂ} {N : ℕ} (hζ : IsPrimitiveRoot ζ N) (m : ℤ) :
    ∑ n ∈ Finset.range N, ζ ^ (m * n) = if (N : ℤ) ∣ m then (N : ℂ) else 0 := by
  simp only [zpow_mul, zpow_natCast]
  split
  next dvd => simp [(hζ.zpow_eq_one_iff_dvd m).mpr dvd]
  next ndvd =>
    have turns : (ζ ^ m) ^ N = 1 := by
      rw [← zpow_natCast, zpow_comm, zpow_natCast, hζ.pow_eq_one, one_zpow]
    rw [geom_sum_eq (mt (hζ.zpow_eq_one_iff_dvd m).mp ndvd), turns, sub_self, zero_div]

/-- The rotation by one `N`-th of a turn. -/
noncomputable def unitRotation (N : ℕ) : ℂ := Complex.exp (2 * Real.pi * Complex.I / N)

theorem isPrimitiveRoot_unitRotation {N : ℕ} (hN : N ≠ 0) : IsPrimitiveRoot (unitRotation N) N :=
  Complex.isPrimitiveRoot_exp N hN

theorem unitRotation_zpow (N : ℕ) (m : ℤ) :
    unitRotation N ^ m = Complex.exp (2 * Real.pi * m / N * Complex.I) := by
  rw [unitRotation, ← Complex.exp_int_mul]
  congr 1
  ring

/-- A tone that falls on bin `j` is a difference of two opposite rotations. -/
theorem exactTone_of_on_bin {c : Cfg} {f j : ℕ} (hfs : 0 < c.fs) (hN : 0 < chunkLen c)
    (on_bin : f * chunkLen c = j * c.fs) (n : ℕ) :
    (exactTone c f n : ℂ)
      = Complex.I / 4 * (unitRotation (chunkLen c) ^ (-(j : ℤ) * n) - unitRotation (chunkLen c) ^ ((j : ℤ) * n)) := by
  have hfs' : (c.fs : ℂ) ≠ 0 := Nat.cast_ne_zero.mpr hfs.ne'
  have hN' : (chunkLen c : ℂ) ≠ 0 := Nat.cast_ne_zero.mpr hN.ne'
  have turn : 2 * Real.pi * f * n / c.fs = (2 * Real.pi * (j * n : ℂ) / chunkLen c : ℂ) := by
    rw [div_eq_div_iff hfs' hN']
    have cast : (f * chunkLen c : ℂ) = j * c.fs := mod_cast on_bin
    linear_combination 2 * Real.pi * n * cast
  rw [exactTone_eq, unitRotation_zpow, unitRotation_zpow]
  push_cast
  rw [turn, Complex.sin]
  ring_nf

/-- The transform of a tone on bin `j`, by the geometric sum. -/
theorem chunkSpectrum_of_on_bin {c : Cfg} {b : Bit} {j : ℕ} (hfs : 0 < c.fs) (hN : 0 < chunkLen c)
    (on_bin : toneFreq c b * chunkLen c = j * c.fs) (k : ℕ) :
    chunkSpectrum (exactEncbit c b) k
      = Complex.I / 4 * ((if (chunkLen c : ℤ) ∣ -(j : ℤ) - k then (chunkLen c : ℂ) else 0)
        - if (chunkLen c : ℤ) ∣ (j : ℤ) - k then (chunkLen c : ℂ) else 0) := by
  have root := isPrimitiveRoot_unitRotation hN.ne'
  rw [← sum_zpow_mul_range root, ← sum_zpow_mul_range root, ← Finset.sum_sub_distrib, Finset.mul_sum, chunkSpectrum,
    exactEncbit_length]
  refine Finset.sum_congr rfl fun n hn => ?_
  have sample : (exactEncbit c b).getD n 0 = exactTone c (toneFreq c b) n := by
    rw [List.getD_eq_getElem?_getD, exactEncbit_getElem? c b (Finset.mem_range.mp hn), Option.getD_some]
  have kernel : Complex.exp (-(2 * Real.pi * k * n / chunkLen c) * Complex.I)
      = unitRotation (chunkLen c) ^ (-(k : ℤ) * n) := by
    rw [unitRotation_zpow]
    congr 1
    push_cast
    ring
  have ne_zero : unitRotation (chunkLen c) ≠ 0 := Complex.exp_ne_zero _
  rw [sample, exactTone_of_on_bin hfs hN on_bin, kernel, mul_assoc, sub_mul, ← zpow_add₀ ne_zero,
    ← zpow_add₀ ne_zero]
  congr 3 <;> ring

/-- The spectrum of a tone on bin `j`: the opposite rotation falls on bin `N - j`, above the spectrum. -/
theorem magnitude_of_on_bin {c : Cfg} {b : Bit} {j : ℕ} (hfs : 0 < c.fs) (on_bin : toneFreq c b * chunkLen c = j * c.fs)
    (pos : 0 < j) (low : 2 * j < chunkLen c) {k : ℕ} (hk : k ≤ chunkLen c / 2) :
    magnitude (exactEncbit c b) k = if k = j then (chunkLen c : ℝ) / 4 else 0 := by
  have opposite : ¬ (chunkLen c : ℤ) ∣ -(j : ℤ) - k := fun h => by
    have := Int.eq_zero_of_abs_lt_dvd h (by rw [abs_lt]; omega)
    omega
  have same : (chunkLen c : ℤ) ∣ (j : ℤ) - k ↔ k = j := by
    refine ⟨fun h => ?_, fun h => by simp [h]⟩
    have := Int.eq_zero_of_abs_lt_dvd h (by rw [abs_lt]; omega)
    omega
  rw [magnitude, chunkSpectrum_of_on_bin hfs (by omega) on_bin, if_neg opposite]
  by_cases hkj : k = j
  · rw [if_pos (same.mpr hkj), if_pos hkj]
    simp
    ring
  · rw [if_neg (mt same.mp hkj), if_neg hkj]
    simp

/-! ## Bands and the round trip of tones on bins (R126) -/

theorem window_nodup (c : Cfg) (f len : Nat) : (window c f len).Nodup := List.Nodup.filter _ List.nodup_range'

/-- A window holds the bin of its own frequency, the bounds being inclusive. -/
theorem mem_window_of_on_bin {c : Cfg} {f j len : ℕ} (on_bin : f * len = j * c.fs) (low : 2 * j < len) :
    j ∈ window c f len := by
  rw [mem_window_iff]
  refine ⟨by omega, ?_⟩
  simp [inWindow, ← on_bin, Nat.add_mul]

/-- A window holds no bin that lies more than BAND_HW away. -/
theorem notMem_window_of_apart {c : Cfg} {f g j len : ℕ} (on_bin : g * len = j * c.fs) (hlen : 0 < len)
    (apart : c.bandHw < f - g ∨ c.bandHw < g - f) : j ∉ window c f len := by
  rw [mem_window_iff, inWindow, ← on_bin, ← Nat.add_mul, Bool.and_eq_true, decide_eq_true_iff, decide_eq_true_iff,
    Nat.mul_le_mul_right_iff hlen, Nat.mul_le_mul_right_iff hlen]
  omega

/-- The band magnitude of a one-bin spectrum: its one magnitude shared among the bins of a window that holds it. -/
theorem bandMagnitude_of_one_bin {c : Cfg} {x : List ℝ} {j : ℕ} {v : ℝ}
    (h : ∀ k ≤ x.length / 2, magnitude x k = if k = j then v else 0) (f : ℕ) :
    bandMagnitude c x f
      = (if j ∈ window c f x.length then v else 0) / ((window c f x.length).length : ℝ) := by
  have spectrum : (window c f x.length).map (magnitude x)
      = (window c f x.length).map fun k => if k = j then v else 0 :=
    List.map_congr_left fun k hk => h k ((mem_window_iff c f x.length k).mp hk).1
  rw [bandMagnitude, spectrum, List.sum_map_ite_eq, (window_nodup c f x.length).count]
  split <;> simp

namespace OnBinTones
variable {c : Cfg} {k1 k0 : ℕ}

/-- The bin of a bit's tone. -/
theorem on_bin (h : OnBinTones c k1 k0) (b : Bit) : toneFreq c b * chunkLen c = (if b then k1 else k0) * c.fs := by
  cases b with
  | true => exact h.mark_on_bin
  | false => exact h.space_on_bin

theorem bin_low (h : OnBinTones c k1 k0) (b : Bit) :
    0 < (if b then k1 else k0) ∧ 2 * (if b then k1 else k0) < chunkLen c := by
  cases b with
  | true => exact h.mark_low
  | false => exact h.space_low

theorem chunkLen_pos (h : OnBinTones c k1 k0) : 0 < chunkLen c := by
  have := h.mark_low.2
  omega

theorem magnitude_exactEncbit (h : OnBinTones c k1 k0) (b : Bit) {k : ℕ} (hk : k ≤ chunkLen c / 2) :
    magnitude (exactEncbit c b) k = if k = (if b then k1 else k0) then (chunkLen c : ℝ) / 4 else 0 :=
  magnitude_of_on_bin h.sampled (h.on_bin b) (h.bin_low b).1 (h.bin_low b).2 hk

theorem bandMagnitude_exactEncbit (h : OnBinTones c k1 k0) (b : Bit) (f : ℕ) :
    bandMagnitude c (exactEncbit c b) f
      = (if (if b then k1 else k0) ∈ window c f (chunkLen c) then (chunkLen c : ℝ) / 4 else 0)
        / ((window c f (chunkLen c)).length : ℝ) := by
  rw [bandMagnitude_of_one_bin (fun k hk => h.magnitude_exactEncbit b (exactEncbit_length c b ▸ hk)),
    exactEncbit_length]

theorem bin_mem_window (h : OnBinTones c k1 k0) (b : Bit) :
    (if b then k1 else k0) ∈ window c (toneFreq c b) (chunkLen c) :=
  mem_window_of_on_bin (h.on_bin b) (h.bin_low b).2

/-- The premise on the threshold, for the window of either tone. -/
theorem thresh_mul_lt (h : OnBinTones c k1 k0) (b : Bit) :
    c.thresh * (4 * (window c (toneFreq c b) (chunkLen c)).length : ℕ) < (chunkLen c : ℕ) := by
  cases b with
  | true => exact h.threshold_mark
  | false => exact h.threshold_space

/-- A tone's energy in its own window is positive and above the threshold. -/
theorem lt_bandMagnitude_own (h : OnBinTones c k1 k0) (b : Bit) :
    0 < bandMagnitude c (exactEncbit c b) (toneFreq c b)
      ∧ (c.thresh : ℝ) < bandMagnitude c (exactEncbit c b) (toneFreq c b) := by
  have bins : (0 : ℝ) < (window c (toneFreq c b) (chunkLen c)).length :=
    Nat.cast_pos.mpr (List.length_pos_of_mem (h.bin_mem_window b))
  have samples : (0 : ℝ) < chunkLen c := Nat.cast_pos.mpr h.chunkLen_pos
  have below : (c.thresh : ℝ) * (4 * (window c (toneFreq c b) (chunkLen c)).length) < chunkLen c :=
    mod_cast h.thresh_mul_lt b
  rw [h.bandMagnitude_exactEncbit, if_pos (h.bin_mem_window b)]
  refine ⟨by positivity, ?_⟩
  rw [lt_div_iff₀ bins]
  linarith

/-- A tone has no energy in the window of the other. -/
theorem bandMagnitude_other (h : OnBinTones c k1 k0) (b : Bit) :
    bandMagnitude c (exactEncbit c b) (toneFreq c !b) = 0 := by
  have apart : c.bandHw < toneFreq c (!b) - toneFreq c b ∨ c.bandHw < toneFreq c b - toneFreq c (!b) := by
    cases b with
    | true => exact h.apart.symm
    | false => exact h.apart
  rw [h.bandMagnitude_exactEncbit, if_neg (notMem_window_of_apart (h.on_bin b) h.chunkLen_pos apart), zero_div]

theorem exactToneRoundTrip (h : OnBinTones c k1 k0) : ExactToneRoundTrip c := by
  obtain ⟨mark_pos, mark_loud⟩ := h.lt_bandMagnitude_own true
  obtain ⟨space_pos, space_loud⟩ := h.lt_bandMagnitude_own false
  have mark_other : bandMagnitude c (exactEncbit c true) c.fSpace = 0 := h.bandMagnitude_other true
  have space_other : bandMagnitude c (exactEncbit c false) c.fMark = 0 := h.bandMagnitude_other false
  constructor
  · rw [exactDecbit_eq_decisionOf]
    exact decisionOf_mark (mark_other ▸ mark_pos) mark_loud
  · rw [exactDecbit_eq_decisionOf]
    exact decisionOf_space (space_other ▸ space_pos.le) space_loud

end OnBinTones

/-! ## The operations -/

theorem exec_of_idle {s : State} (h : s.phase = .idle) (i : Instr) : exec i s = .next (commandOp i s) := by
  rw [exec_eq_whenIdle, whenIdle_idle h]

theorem windowsNonempty_iff_ne_nil (c : Cfg) (len : Nat) :
    windowsNonempty c len = true ↔ window c c.fMark len ≠ [] ∧ window c c.fSpace len ≠ [] := by
  simp [windowsNonempty]

theorem decbitOp_of_refused (num : Numerics) {s : State}
    (h : s.sb = [] ∨ window s.cfg s.cfg.fMark s.sb.length = [] ∨ window s.cfg s.cfg.fSpace s.sb.length = []) :
    decbitOp num s = refuse .badOperand s := by
  refine if_neg ?_
  rw [windowsNonempty_iff_ne_nil, Ne, List.length_eq_zero_iff]
  tauto

theorem decbitOp_of_readable (num : Numerics) {s : State} (hsb : s.sb ≠ [])
    (hm : window s.cfg s.cfg.fMark s.sb.length ≠ []) (hs : window s.cfg s.cfg.fSpace s.sb.length ≠ []) :
    decbitOp num s = s.setRes .ok (symbolWord (fDecbit num s.cfg s.sb)) :=
  if_pos ⟨mt List.length_eq_zero_iff.mp hsb, (windowsNonempty_iff_ne_nil _ _).mpr ⟨hm, hs⟩⟩

end Sys2Proof.Machine
end

section
/-! PROOF. The statements of 40_tonecodec. -/

namespace Sys2Proof.Machine

/-- Settles O30: sample by sample, under a numerics and over the reals; a sine lies between -1 and 1 and begins at 0. -/
theorem toneSamplesAreTheHalfAmplitudeSine : Obligations.ToneSamplesAreTheHalfAmplitudeSine := by
  unfold Obligations.ToneSamplesAreTheHalfAmplitudeSine
  refine ⟨fun num c b => ⟨fEncbit_length num c b, fun n => fEncbit_getElem? num c b,
    fun h => map_fEncbit_of_exact_tones h b⟩, fun c b => ⟨exactEncbit_length c b, fun n hn => ?_, fun x hx => ?_,
    fun x hx => ?_⟩⟩
  · rw [exactEncbit_getElem? c b hn, exactTone_eq]
    rfl
  · obtain ⟨n, -, rfl⟩ := List.mem_map.mp hx
    exact exactTone_mem_Icc c (toneFreq c b) n
  · obtain ⟨hn, -⟩ := List.getElem?_eq_some_iff.mp hx
    rw [exactEncbit_getElem? c b (exactEncbit_length c b ▸ hn), exactTone_zero] at hx
    exact (Option.some.inj hx).symm

/-- Settles O33: the geometric sum leaves one bin of the spectrum (`magnitude_of_on_bin`), so a tone's mean magnitude
is above the threshold in its own window and 0 in the other. -/
theorem onBinTonesRoundTrip : Obligations.OnBinTonesRoundTrip := by
  unfold Obligations.OnBinTonesRoundTrip
  exact fun c k1 k0 h => ⟨fun b _ => h.magnitude_exactEncbit b, h.exactToneRoundTrip⟩

/-- Settles O34, by induction on the bits: the first chunk is the tone of the first bit. -/
theorem demodulationUndoesModulation : Obligations.DemodulationUndoesModulation := by
  unfold Obligations.DemodulationUndoesModulation
  exact fun _ _ hn h => h.fDemod_fMod hn

/-- Settles O31: the machine and the reals make the same tests, each in its own order (`decisionOf_table`). -/
theorem decisionTableOfDecbit : Obligations.DecisionTableOfDecbit := by
  unfold Obligations.DecisionTableOfDecbit
  constructor
  · rintro num c x m s t rfl rfl rfl
    exact decisionOf_table (num.bandmag c x c.fMark) (num.bandmag c x c.fSpace) c.thresh
  · rintro c x m s t rfl rfl rfl
    exact decisionOf_table (bandMagnitude c x c.fMark) (bandMagnitude c x c.fSpace) (c.thresh : ℝ)

/-- Settles O37: the operation in IDLE, where N fits SB_CAP and where it does not. -/
theorem encbitWritesTheTone : Obligations.EncbitWritesTheTone := by
  unfold Obligations.EncbitWritesTheTone
  refine ⟨fun b s idle => ?_, reservedAbove_immWidth (.encbit false)⟩
  rw [exec_of_idle idle, commandOp, encbitOp]
  split <;> rfl

/-- Settles O38: the refusal and the reading are the two branches of the operation in IDLE. -/
theorem decbitReadsTheWholeOfSb : Obligations.DecbitReadsTheWholeOfSb := by
  unfold Obligations.DecbitReadsTheWholeOfSb
  refine ⟨fun s idle => ⟨fun h => ?_, fun hsb hm hs => ?_⟩, reservedAbove_immWidth .decbit⟩
  · rw [exec_of_idle idle, commandOp, decbitOp_of_refused theNum h]
    rfl
  · rw [exec_of_idle idle, commandOp, decbitOp_of_readable theNum hsb hm hs]
    rcases fDecbit theNum s.cfg s.sb with _ | _ | _ <;> rfl

/-- Settles O39: the index law by induction on the bits, and the operation in IDLE. -/
theorem modWritesOneTonePerBit : Obligations.ModWritesOneTonePerBit := by
  unfold Obligations.ModWritesOneTonePerBit
  refine ⟨fun num c bits => ⟨fMod_length num c bits, fun j n => fMod_getElem? num c bits j⟩, fun s idle => ?_,
    reservedAbove_immWidth .mod⟩
  rw [exec_of_idle idle, commandOp, modOp]
  split <;> rfl

/-- Settles O40: F_DEMOD chunk by chunk, and the operation in IDLE, whose test is on the worst case. -/
theorem demodDropsUndeterminedChunks : Obligations.DemodDropsUndeterminedChunks := by
  unfold Obligations.DemodDropsUndeterminedChunks
  refine ⟨fun num c x => ⟨fDemod_eq_reduceOption num c x, fDemod_length_le num c x, fDemod_of_length_lt num⟩,
    fun s idle => ?_, reservedAbove_immWidth .demod⟩
  rw [exec_of_idle idle, commandOp, demodOp]
  split <;> rfl

end Sys2Proof.Machine
end

section
/-! SUPPORT. Laws for the statements of 41_frame_primitives: the alphabet of the reversible encoding and its groups of
6-bit digits (R142 to R144), and the linearity of the CRC (R147, R150). -/

namespace Sys2Proof.Machine

/-! ## The alphabet (R144) -/

theorem b64Alphabet_getElem? : ∀ v < 64, b64Alphabet[v]? = some (b64Char v) := by decide

theorem b64Val_b64Char : ∀ v < 64, b64Val (b64Char v) = some v := by decide

/-- The character as a number, range by range of the alphabet. -/
theorem b64Char_toNat : ∀ v < 64, (v < 26 → (b64Char v).toNat = v + 0x41)
    ∧ (26 ≤ v → v < 52 → (b64Char v).toNat = v - 26 + 0x61) ∧ (52 ≤ v → v < 62 → (b64Char v).toNat = v - 52 + 0x30)
    ∧ (v = 62 → (b64Char v).toNat = 0x2B) ∧ (v = 63 → (b64Char v).toNat = 0x2F) := by decide

theorem b64Val_lt {b : Byte} {v : Nat} (h : b64Val b = some v) : v < 64 := by
  simp only [b64Val] at h
  split_ifs at h <;> cases h <;> omega

/-- A byte has a value exactly when it is the character of that 6-bit value. -/
theorem b64Val_eq_some_iff {b : Byte} {v : Nat} : b64Val b = some v ↔ v < 64 ∧ b64Char v = b := by
  refine ⟨fun h => ?_, fun ⟨hv, hb⟩ => hb ▸ b64Val_b64Char v hv⟩
  have hv := b64Val_lt h
  obtain ⟨upper, lower, digit, plus, slash⟩ := b64Char_toNat v hv
  refine ⟨hv, BitVec.eq_of_toNat_eq ?_⟩
  simp only [b64Val] at h
  split_ifs at h <;> cases h <;> omega

theorem b64Val_eq_some_iff_getElem? {b : Byte} {v : Nat} : b64Val b = some v ↔ b64Alphabet[v]? = some b := by
  rw [b64Val_eq_some_iff]
  constructor
  · rintro ⟨hv, rfl⟩
    exact b64Alphabet_getElem? v hv
  · intro h
    obtain ⟨hv : v < 64, -⟩ := List.getElem?_eq_some_iff.mp h
    exact ⟨hv, Option.some.inj ((b64Alphabet_getElem? v hv).symm.trans h)⟩

theorem b64Char_ne_pad {v : Nat} (hv : v < 64) : b64Char v ≠ b64Pad := fun h => by
  have value := b64Val_b64Char v hv
  rw [h] at value
  cases value

/-- The characters, the pad included, are printable ASCII (R142). -/
def Printable (b : Byte) : Prop := 0x20 ≤ b.toNat ∧ b.toNat ≤ 0x7E

theorem printable_b64Char (v : Nat) : Printable (b64Char v) := by
  unfold Printable b64Char
  split_ifs <;> simp <;> omega

theorem printable_b64Pad : Printable b64Pad := by
  unfold Printable
  decide

theorem printable_of_mem_fRenc (a : Text) : ∀ b ∈ fRenc a, Printable b := by
  induction a using fRenc.induct with
  | case1 => simp [fRenc]
  | case2 x => simp [fRenc, printable_b64Char, printable_b64Pad]
  | case3 x y => simp [fRenc, printable_b64Char, printable_b64Pad]
  | case4 x y z rest ih => simpa [fRenc, printable_b64Char] using ih

/-! ## Groups of 6-bit digits (R144)

One, two and three bytes are two, three and four digits; the digits that padding cuts off are zero. The encoder and the
decoder are each said in terms of the digits, so that either undoes the other group by group. -/

/-- The first byte of a group, from its digits 0 and 1. -/
def firstByte (p q : Nat) : Byte := byteOf (p * 4 + q / 16)

/-- The second byte of a group, from its digits 1 and 2. -/
def secondByte (q r : Nat) : Byte := byteOf (q % 16 * 16 + r / 4)

/-- The third byte of a group, from its digits 2 and 3. -/
def thirdByte (r t : Nat) : Byte := byteOf (r % 4 * 64 + t)

theorem byteOf_toNat {n : Nat} (h : n < 256) : (byteOf n).toNat = n := Nat.mod_eq_of_lt h

theorem eq_byteOf {x : Byte} {n : Nat} (h : n = x.toNat) : x = byteOf n := by
  rw [h, byteOf, BitVec.ofNat_toNat, BitVec.setWidth_eq]

section
variable {p q r t : Nat}

theorem firstByte_toNat (hp : p < 64) (hq : q < 64) : (firstByte p q).toNat = p * 4 + q / 16 :=
  byteOf_toNat (by omega)

theorem secondByte_toNat (hr : r < 64) : (secondByte q r).toNat = q % 16 * 16 + r / 4 := byteOf_toNat (by omega)

theorem thirdByte_toNat (ht : t < 64) : (thirdByte r t).toNat = r % 4 * 64 + t := byteOf_toNat (by omega)

theorem fRenc_one_byte (hp : p < 64) (hq : q < 64) (hz : q % 16 = 0) :
    fRenc [firstByte p q] = [b64Char p, b64Char q, b64Pad, b64Pad] := by
  rw [fRenc, firstByte_toNat hp hq]
  congr 3 <;> omega

theorem fRenc_two_bytes (hp : p < 64) (hq : q < 64) (hr : r < 64) (hz : r % 4 = 0) :
    fRenc [firstByte p q, secondByte q r] = [b64Char p, b64Char q, b64Char r, b64Pad] := by
  rw [fRenc, firstByte_toNat hp hq, secondByte_toNat hr]
  congr 4 <;> omega

theorem fRenc_three_bytes (hp : p < 64) (hq : q < 64) (hr : r < 64) (ht : t < 64) (rest : Text) :
    fRenc (firstByte p q :: secondByte q r :: thirdByte r t :: rest)
      = b64Char p :: b64Char q :: b64Char r :: b64Char t :: fRenc rest := by
  rw [fRenc, firstByte_toNat hp hq, secondByte_toNat hr, thirdByte_toNat ht]
  congr 5 <;> omega

theorem fRdec_one_byte (hp : p < 64) (hq : q < 64) (hz : q % 16 = 0) :
    fRdec [b64Char p, b64Char q, b64Pad, b64Pad] = some [firstByte p q] := by
  simp [fRdec, b64Val_b64Char, hp, hq, hz, firstByte]

theorem fRdec_two_bytes (hp : p < 64) (hq : q < 64) (hr : r < 64) (hz : r % 4 = 0) :
    fRdec [b64Char p, b64Char q, b64Char r, b64Pad] = some [firstByte p q, secondByte q r] := by
  simp [fRdec, b64Val_b64Char, b64Char_ne_pad, hp, hq, hr, hz, firstByte, secondByte]

theorem fRdec_three_bytes (hp : p < 64) (hq : q < 64) (hr : r < 64) (ht : t < 64) (rest : Text) :
    fRdec (b64Char p :: b64Char q :: b64Char r :: b64Char t :: rest)
      = (fRdec rest).map fun more => firstByte p q :: secondByte q r :: thirdByte r t :: more := by
  simp [fRdec, b64Val_b64Char, b64Char_ne_pad, hp, hq, hr, ht, firstByte, secondByte, thirdByte]

end

theorem exists_digits_one (x : Byte) : ∃ p q, p < 64 ∧ q < 64 ∧ q % 16 = 0 ∧ x = firstByte p q := by
  have hx := x.isLt
  exact ⟨x.toNat / 4, x.toNat % 4 * 16, by omega, by omega, by omega, eq_byteOf (by omega)⟩

theorem exists_digits_two (x y : Byte) :
    ∃ p q r, p < 64 ∧ q < 64 ∧ r < 64 ∧ r % 4 = 0 ∧ x = firstByte p q ∧ y = secondByte q r := by
  have hx := x.isLt
  have hy := y.isLt
  exact ⟨x.toNat / 4, x.toNat % 4 * 16 + y.toNat / 16, y.toNat % 16 * 4, by omega, by omega, by omega, by omega,
    eq_byteOf (by omega), eq_byteOf (by omega)⟩

theorem exists_digits_three (x y z : Byte) :
    ∃ p q r t, p < 64 ∧ q < 64 ∧ r < 64 ∧ t < 64 ∧ x = firstByte p q ∧ y = secondByte q r ∧ z = thirdByte r t := by
  have hx := x.isLt
  have hy := y.isLt
  have hz := z.isLt
  exact ⟨x.toNat / 4, x.toNat % 4 * 16 + y.toNat / 16, y.toNat % 16 * 4 + z.toNat / 64, z.toNat % 64, by omega,
    by omega, by omega, by omega, eq_byteOf (by omega), eq_byteOf (by omega), eq_byteOf (by omega)⟩

/-! ## The decoder is the inverse of the encoder, on its image alone (R142, R143) -/

theorem fRdec_fRenc (a : Text) : fRdec (fRenc a) = some a := by
  induction a using fRenc.induct with
  | case1 => rfl
  | case2 x =>
    obtain ⟨p, q, hp, hq, hz, rfl⟩ := exists_digits_one x
    rw [fRenc_one_byte hp hq hz, fRdec_one_byte hp hq hz]
  | case3 x y =>
    obtain ⟨p, q, r, hp, hq, hr, hz, rfl, rfl⟩ := exists_digits_two x y
    rw [fRenc_two_bytes hp hq hr hz, fRdec_two_bytes hp hq hr hz]
  | case4 x y z rest ih =>
    obtain ⟨p, q, r, t, hp, hq, hr, ht, rfl, rfl, rfl⟩ := exists_digits_three x y z
    rw [fRenc_three_bytes hp hq hr ht, fRdec_three_bytes hp hq hr ht, ih, Option.map_some]

/-- What the decoder accepts is an encoding: an accepted group has the digits of the bytes it is read as. -/
theorem fRenc_of_fRdec {y a : Text} (h : fRdec y = some a) : fRenc a = y := by
  fun_induction fRdec y generalizing a with
  | case1 =>
    cases h
    rfl
  | case2 c d _ _ rest p q valQ valP pads zero =>
    obtain ⟨hp, rfl⟩ := b64Val_eq_some_iff.mp valP
    obtain ⟨hq, rfl⟩ := b64Val_eq_some_iff.mp valQ
    obtain ⟨rfl, rfl, rfl⟩ := pads
    cases h
    exact fRenc_one_byte hp hq zero
  | case5 _ _ _ d rest p q valQ valP _ r valR pad zero =>
    obtain ⟨hp, rfl⟩ := b64Val_eq_some_iff.mp valP
    obtain ⟨hq, rfl⟩ := b64Val_eq_some_iff.mp valQ
    obtain ⟨hr, rfl⟩ := b64Val_eq_some_iff.mp valR
    obtain ⟨rfl, rfl⟩ := pad
    cases h
    exact fRenc_two_bytes hp hq hr zero
  | case8 _ _ _ _ rest p q valQ valP _ r valR _ t valT ih =>
    obtain ⟨hp, rfl⟩ := b64Val_eq_some_iff.mp valP
    obtain ⟨hq, rfl⟩ := b64Val_eq_some_iff.mp valQ
    obtain ⟨hr, rfl⟩ := b64Val_eq_some_iff.mp valR
    obtain ⟨ht, rfl⟩ := b64Val_eq_some_iff.mp valT
    obtain ⟨more, hm, rfl⟩ := Option.map_eq_some_iff.mp h
    rw [← ih hm]
    exact fRenc_three_bytes hp hq hr ht more
  | case3 | case4 | case6 | case7 | case9 | case10 => cases h

/-- The encoder is injective (R142). -/
theorem fRenc_injective : Function.Injective fRenc := fun a b h =>
  Option.some.inj (by rw [← fRdec_fRenc a, h, fRdec_fRenc])

theorem fRdec_eq_some_iff {y a : Text} : fRdec y = some a ↔ y = fRenc a :=
  ⟨fun h => (fRenc_of_fRdec h).symm, fun h => h ▸ fRdec_fRenc a⟩

theorem fRdec_eq_none_iff {y : Text} : fRdec y = none ↔ ∀ a, y ≠ fRenc a := by
  simp only [Option.eq_none_iff_forall_ne_some, Ne, fRdec_eq_some_iff]

/-! ## The CRC (R147, R150) -/

/-- The bit that leaves comes back as the constant term of the polynomial. -/
theorem crcShift_getLsbD_zero (acc : Byte) : (crcShift acc).getLsbD 0 = acc.getLsbD 7 := by
  unfold crcShift
  split <;> simp_all [crcPoly]

/-- Both branches of an iteration at once. -/
theorem crcShift_eq (acc : Byte) : crcShift acc = (acc <<< 1) ^^^ if acc.getLsbD 7 then crcPoly else 0#8 := by
  unfold crcShift
  split <;> simp

/-- The polynomial is added for `a ^^^ b` exactly when it is added for one of the two (R150(a)). -/
theorem crcShift_xor (a b : Byte) : crcShift (a ^^^ b) = crcShift a ^^^ crcShift b := by
  have poly : (if (a ^^^ b).getLsbD 7 then crcPoly else 0#8)
      = (if a.getLsbD 7 then crcPoly else 0#8) ^^^ if b.getLsbD 7 then crcPoly else 0#8 := by
    rw [BitVec.getLsbD_xor]
    cases a.getLsbD 7 <;> cases b.getLsbD 7 <;> rfl
  rw [crcShift_eq, crcShift_eq a, crcShift_eq b, BitVec.shiftLeft_xor_distrib, poly]
  ac_rfl

/-- An iteration gives 0 only of 0: the bit that leaves is 0, and the shift keeps the others. -/
theorem eq_zero_of_crcShift {d : Byte} (h : crcShift d = 0#8) : d = 0#8 := by
  have top : d.getLsbD 7 = false := by
    rw [← crcShift_getLsbD_zero, h]
    rfl
  rw [crcShift_eq, top] at h
  refine BitVec.eq_of_getElem_eq fun i hi => ?_
  obtain low | rfl : i + 1 < 8 ∨ i = 7 := by omega
  · simpa [low] using congrArg (BitVec.getLsbD · (i + 1)) h
  · simpa using top

/-- No iteration forgets anything (R150(b)). -/
theorem crcShift_injective : Function.Injective crcShift := fun a b h =>
  BitVec.xor_eq_zero_iff.mp (eq_zero_of_crcShift (by rw [crcShift_xor, h, BitVec.xor_self]))

/-- A byte is 8 iterations on the accumulator with the byte added. -/
theorem crcByte_eq_iterate (acc b : Byte) : crcByte acc b = crcShift^[8] (acc ^^^ b) := rfl

theorem crcShift_iterate_xor (n : Nat) (a b : Byte) :
    crcShift^[n] (a ^^^ b) = crcShift^[n] a ^^^ crcShift^[n] b := by
  induction n generalizing a b with
  | zero => rfl
  | succ n ih => rw [Function.iterate_succ_apply, crcShift_xor, ih]; rfl

theorem crcByte_xor (a a' b b' : Byte) : crcByte (a ^^^ a') (b ^^^ b') = crcByte a b ^^^ crcByte a' b' := by
  simp only [crcByte_eq_iterate, ← crcShift_iterate_xor]
  ac_rfl

/-- A byte equal to the accumulator leaves 0 (R150(d)). -/
theorem crcByte_self (acc : Byte) : crcByte acc acc = 0#8 := by
  rw [crcByte_eq_iterate, BitVec.xor_self]
  rfl

theorem crcByte_injective_acc (b : Byte) : Function.Injective (crcByte · b) := fun _ _ h =>
  (BitVec.xor_left_inj b).mp (crcShift_injective.iterate 8 h)

theorem crcByte_injective_byte (acc : Byte) : Function.Injective (crcByte acc) := fun _ _ h =>
  (BitVec.xor_right_inj acc).mp (crcShift_injective.iterate 8 h)

theorem foldl_crcByte_injective (bytes : Text) : Function.Injective (bytes.foldl crcByte) := by
  induction bytes with
  | nil => exact Function.injective_id
  | cons b bytes ih => exact ih.comp (crcByte_injective_acc b)

theorem foldl_crcByte_xor (acc acc' : Byte) {a b : Text} (h : a.length = b.length) :
    (List.zipWith (· ^^^ ·) a b).foldl crcByte (acc ^^^ acc') = a.foldl crcByte acc ^^^ b.foldl crcByte acc' := by
  induction a generalizing acc acc' b with
  | nil =>
    rw [List.length_eq_zero_iff.mp h.symm]
    rfl
  | cons x a ih =>
    obtain ⟨y, b, rfl⟩ := List.exists_cons_of_length_eq_add_one h.symm
    simp only [List.zipWith_cons_cons, List.foldl_cons, crcByte_xor]
    exact ih _ _ (Nat.succ.inj h)

/-- The CRC of equally long sequences is linear (R150(a)). -/
theorem fCrc8_xor {a b : Text} (h : a.length = b.length) :
    fCrc8 (List.zipWith (· ^^^ ·) a b) = fCrc8 a ^^^ fCrc8 b := foldl_crcByte_xor crcInit crcInit h

/-- Leading zero bytes are not seen, the initial value being 0 (R150(c)). -/
theorem fCrc8_zero_cons (bytes : Text) : fCrc8 (0#8 :: bytes) = fCrc8 bytes :=
  congrArg (bytes.foldl crcByte) (crcByte_self 0#8)

theorem fCrc8_append_cons (pre post : Text) (v : Byte) :
    fCrc8 (pre ++ v :: post) = post.foldl crcByte (crcByte (fCrc8 pre) v) := by
  rw [fCrc8, List.foldl_append, List.foldl_cons, fCrc8]

/-- Any change of one byte changes the CRC (R150(b)). -/
theorem fCrc8_append_cons_injective (pre post : Text) :
    Function.Injective fun v : Byte => fCrc8 (pre ++ v :: post) := by
  simp only [fCrc8_append_cons]
  exact (foldl_crcByte_injective post).comp (crcByte_injective_byte (fCrc8 pre))

theorem bit_ne_zero : ∀ k < 8, 1#8 <<< k ≠ 0#8 := by decide

theorem xor_bit_ne (v : Byte) {k : Nat} (hk : k < 8) : v ^^^ (1#8 <<< k) ≠ v := fun h =>
  bit_ne_zero k hk ((BitVec.xor_right_inj v).mp (h.trans BitVec.xor_zero.symm))

/-! ## The operations -/

/-- An operation that tests and writes, or else refuses. -/
theorem exec_of_idle_ite {s t u : State} {i : Instr} {c : Prop} [Decidable c] (idle : s.phase = .idle)
    (op : commandOp i s = if c then t else u) : exec i s = if c then .next t else .next u := by
  rw [exec_of_idle idle, op]
  split <;> rfl

end Sys2Proof.Machine
end

section
/-! PROOF. The statements of 41_frame_primitives. -/

namespace Sys2Proof.Machine

/-- Settles O23: either function undoes the other group by group, both being said in terms of 6-bit digits
(`fRdec_fRenc`, `fRenc_of_fRdec`); the characters are those of the alphabet (`b64Alphabet_getElem?`). -/
theorem reversibleEncodingIsPairedAndStrict : Obligations.ReversibleEncodingIsPairedAndStrict := by
  unfold Obligations.ReversibleEncodingIsPairedAndStrict
  exact ⟨printable_of_mem_fRenc, fun _ _ h => fRenc_injective h, fun _ _ => fRdec_eq_some_iff,
    fun _ => fRdec_eq_none_iff, rfl, rfl, b64Alphabet_getElem?, fun _ _ => b64Val_eq_some_iff_getElem?, rfl,
    fun _ => rfl, fun _ _ => rfl, fun _ _ _ _ => rfl⟩

/-- Settles O24: an iteration is linear (`crcShift_xor`) and forgets nothing (`crcShift_injective`), so a byte and a
sequence of bytes are, too. -/
theorem crcIsThePolynomialDivision : Obligations.CrcIsThePolynomialDivision := by
  unfold Obligations.CrcIsThePolynomialDivision
  refine ⟨fCrc8_nil, fun a b => (fCrc8_append a b).trans (crcByte_eq_iterate _ b), fun _ _ => fCrc8_xor,
    fun pre post v k hk h => ?_, fCrc8_zero_cons, fun b => ?_⟩
  · exact xor_bit_ne v hk (fCrc8_append_cons_injective pre post h)
  · rw [fCrc8_append, crcByte_self]

/-- Settles O41: the operations in IDLE; a valid TB decodes to no more bytes (`fRdec_length_le`). -/
theorem framePrimitiveOperations : Obligations.FramePrimitiveOperations := by
  unfold Obligations.FramePrimitiveOperations
  refine ⟨fun s idle => ⟨exec_of_idle_ite idle rfl, exec_of_idle_ite idle rfl, exec_of_idle_ite idle rfl, fun h => ?_,
    fun bytes h => ⟨?_, fRdec_length_le h⟩, exec_of_idle idle .crc8⟩, reservedAbove_immWidth .unpack,
    reservedAbove_immWidth .pack, reservedAbove_immWidth .renc, reservedAbove_immWidth .rdec,
    reservedAbove_immWidth .crc8⟩
  all_goals
    rw [exec_of_idle idle, commandOp, rdecOp, h]
    rfl

end Sys2Proof.Machine
end

section
/-! SUPPORT. Laws for the statements of 42_framecodec: where SYNCWORD stands (R164), the tests of F_PARSE (R166), and
what bits before and after a frame do to the match and to the bytes that follow it (R168 to R170). -/

namespace Sys2Proof.Machine

/-! ## SYNCWORD in a bitstream (R164) -/

theorem syncAt_zero_iff {bits : Bitstream} : SyncAt bits 0 ↔ syncword <+: bits := by
  rw [List.prefix_iff_eq_take, SyncAt, List.drop_zero, eq_comm, show syncword.length = 16 from rfl]
  refine and_iff_right_of_imp fun h => ?_
  have := congrArg List.length h
  rw [List.length_take, show syncword.length = 16 from rfl] at this
  omega

theorem syncAt_cons_succ {b : Bit} {bits : Bitstream} {i : Nat} : SyncAt (b :: bits) (i + 1) ↔ SyncAt bits i := by
  rw [SyncAt, SyncAt, List.drop_succ_cons, List.length_cons, Nat.add_right_comm, Nat.add_le_add_iff_right]

theorem not_syncAt_nil (i : Nat) : ¬ SyncAt [] i := fun ⟨h, _⟩ => by simp at h

/-- SYNCWORD alternates, beginning with 1. -/
theorem syncAt_iff_getElem? {bits : Bitstream} {i : Nat} :
    SyncAt bits i ↔ ∀ t < 16, bits[i + t]? = some (decide (t % 2 = 0)) := by
  constructor
  · rintro ⟨-, h⟩ t ht
    rw [← List.getElem?_drop, ← List.getElem?_take_of_lt ht, h, syncword_getElem? t ht]
  · intro h
    obtain ⟨room, -⟩ := List.getElem?_eq_some_iff.mp (h 15 (by decide))
    refine ⟨by omega, List.ext_getElem? fun t => ?_⟩
    by_cases ht : t < 16
    · rw [List.getElem?_take_of_lt ht, List.getElem?_drop, h t ht, syncword_getElem? t ht]
    · rw [List.getElem?_take_eq_none (Nat.le_of_not_lt ht), List.getElem?_eq_none (Nat.le_of_not_lt ht)]

theorem fFsync_cons_of_syncAt {b : Bit} {bits : Bitstream} (h : SyncAt (b :: bits) 0) :
    fFsync (b :: bits) = some 0 := if_pos (List.isPrefixOf_iff_prefix.mpr (syncAt_zero_iff.mp h))

theorem fFsync_cons_of_not_syncAt {b : Bit} {bits : Bitstream} (h : ¬ SyncAt (b :: bits) 0) :
    fFsync (b :: bits) = (fFsync bits).map (· + 1) :=
  if_neg fun hp => h (syncAt_zero_iff.mpr (List.isPrefixOf_iff_prefix.mp hp))

theorem fFsync_eq_some_iff {bits : Bitstream} {i : Nat} :
    fFsync bits = some i ↔ SyncAt bits i ∧ ∀ j < i, ¬ SyncAt bits j := by
  induction bits generalizing i with
  | nil => simp [fFsync, not_syncAt_nil]
  | cons b bits ih =>
    by_cases h : SyncAt (b :: bits) 0
    · rw [fFsync_cons_of_syncAt h, Option.some_inj]
      constructor
      · rintro rfl
        exact ⟨h, fun j hj => absurd hj (Nat.not_lt_zero j)⟩
      · rintro ⟨-, least⟩
        exact (Nat.eq_zero_of_not_pos fun hi => least 0 hi h).symm
    · rw [fFsync_cons_of_not_syncAt h]
      cases i with
      | zero => simp [h]
      | succ i =>
        rw [Nat.forall_lt_succ_left, and_iff_right h]
        simp [ih, syncAt_cons_succ]

theorem fFsync_eq_none_iff {bits : Bitstream} : fFsync bits = none ↔ ∀ i, ¬ SyncAt bits i := by
  classical
  constructor
  · intro h i hi
    have found : ∃ i, SyncAt bits i := ⟨i, hi⟩
    have first := fFsync_eq_some_iff.mpr ⟨Nat.find_spec found, fun _ => Nat.find_min found⟩
    cases h.symm.trans first
  · exact fun h => Option.eq_none_iff_forall_ne_some.mpr fun i hi => h i (fFsync_eq_some_iff.mp hi).1

/-- The first match is no later than any other. -/
theorem exists_fFsync_le {bits : Bitstream} {i : Nat} (h : SyncAt bits i) : ∃ j ≤ i, fFsync bits = some j := by
  cases hf : fFsync bits with
  | none => exact absurd h (fFsync_eq_none_iff.mp hf i)
  | some j =>
    obtain ⟨-, least⟩ := fFsync_eq_some_iff.mp hf
    exact ⟨j, Nat.le_of_not_lt fun hj => least i hj h, rfl⟩

/-! ## The tests of F_PARSE (R166) -/

theorem ascii_iff_lt {text : Text} : Ascii text ↔ ∀ b ∈ text, b.toNat < 0x80 :=
  forall₂_congr fun _ _ => Nat.lt_succ_iff.symm

theorem not_ascii_iff {text : Text} : ¬ Ascii text ↔ ∃ b ∈ text, 0x80 ≤ b.toNat := by
  simp [ascii_iff_lt]

theorem checkDecoded_concat (payload : Text) (c : Byte) : checkDecoded (payload ++ [c]) =
    if payload.any fun b => decide (0x80 ≤ b.toNat) then .malformedEncoding
    else if fCrc8 (fRenc payload) ≠ c then .crcMismatch payload else .ok payload := by
  rw [checkDecoded, List.getLast?_concat, List.dropLast_concat]

theorem checkDecoded_of_not_ascii {payload : Text} (h : ¬ Ascii payload) (c : Byte) :
    checkDecoded (payload ++ [c]) = .malformedEncoding := by
  rw [checkDecoded_concat, if_pos]
  simpa using not_ascii_iff.mp h

theorem checkDecoded_of_ascii {payload : Text} (h : Ascii payload) (c : Byte) : checkDecoded (payload ++ [c]) =
    if fCrc8 (fRenc payload) ≠ c then .crcMismatch payload else .ok payload := by
  rw [checkDecoded_concat, if_neg]
  simpa using ascii_iff_lt.mp h

theorem fParse_of_not_found {bits : Bitstream} (h : fFsync bits = none) : fParse bits = .syncNotFound := by
  rw [fParse, h]

section
variable {bits : Bitstream} {i : Nat}

theorem fParse_of_invalid (h : fFsync bits = some i) (hd : fRdec (fPack (bits.drop (i + 16))) = none) :
    fParse bits = .malformedEncoding := by
  simp only [fParse, h, hd]

theorem fParse_of_decoded {d : Text} (h : fFsync bits = some i) (hd : fRdec (fPack (bits.drop (i + 16))) = some d) :
    fParse bits = checkDecoded d := by
  simp only [fParse, h, hd]

end

/-! ## What cannot be decoded (R142, R144) -/

theorem fRdec_eq_none_of_not_printable {y : Text} {b : Byte} (hb : b ∈ y) (h : ¬ Printable b) : fRdec y = none :=
  fRdec_eq_none_iff.mpr fun a hy => h (printable_of_mem_fRenc a b (hy ▸ hb))

theorem not_printable_of_high_bit {b : Byte} (h : b.getLsbD 7 = true) : ¬ Printable b := by
  have high : 0x80 ≤ b.toNat := by
    rw [BitVec.getLsbD] at h
    exact Nat.ge_two_pow_of_testBit h
  unfold Printable
  omega

/-- A byte that begins with a 1 is of no printable alphabet. -/
theorem fRdec_fPack_of_leading_one {bits : Bitstream} (room : 8 ≤ bits.length) (one : bits[0]? = some true) :
    fRdec (fPack bits) = none := by
  have hi : 0 < bits.length / 8 := by omega
  refine fRdec_eq_none_of_not_printable (List.mem_of_getElem? (fPack_getElem? hi)) (not_printable_of_high_bit ?_)
  rw [byteOfBits_getLsbD (j := 0) (octet_length hi) (by decide), octet_getD bits 0 (by decide),
    List.getD_eq_getElem?_getD, one, Option.getD_some]

theorem fRdec_eq_none_of_length {y : Text} (h : y.length % 4 ≠ 0) : fRdec y = none :=
  fRdec_eq_none_iff.mpr fun a hy => h (by rw [hy, fRenc_length, Nat.mul_mod_right])

/-- Every number has an alphabet character: those above 63 share that of 63. -/
theorem b64Val_b64Char_ne_none (v : Nat) : b64Val (b64Char v) ≠ none := by
  by_cases hv : v < 64
  · simp [b64Val_b64Char v hv]
  · have slash : b64Char v = b64Char 63 := by
      rw [b64Char, if_neg (by omega), if_neg (by omega), if_neg (by omega), if_neg (by omega)]
      rfl
    rw [slash, b64Val_b64Char 63 (by decide)]
    exact Option.some_ne_none 63

theorem alphabet_or_pad_of_mem_fRenc (a : Text) : ∀ b ∈ fRenc a, b64Val b ≠ none ∨ b = b64Pad := by
  induction a using fRenc.induct with
  | case1 => simp [fRenc]
  | case2 x => simp [fRenc, b64Val_b64Char_ne_none]
  | case3 x y => simp [fRenc, b64Val_b64Char_ne_none]
  | case4 x y z rest ih => simpa [fRenc, b64Val_b64Char_ne_none] using ih

theorem fRdec_eq_none_of_foreign {y : Text} {b : Byte} (hb : b ∈ y) (value : b64Val b = none) (pad : b ≠ b64Pad) :
    fRdec y = none := fRdec_eq_none_iff.mpr fun a hy =>
  (alphabet_or_pad_of_mem_fRenc a b (hy ▸ hb)).elim (fun h => h value) pad

/-! ## A frame whose own SYNCWORD is the match (R168, R170) -/

theorem fPack_fUnpack_append (bytes : Text) (rest : Bitstream) :
    fPack (fUnpack bytes ++ rest) = bytes ++ fPack rest := by
  induction bytes with
  | nil => rfl
  | cons v bytes ih =>
    rw [fUnpack_cons, List.append_assoc, fPack_append (byteBits_length v), byteOfBits_byteBits, ih, List.cons_append]

theorem fPack_eq_nil {bits : Bitstream} (h : bits.length ≤ 7) : fPack bits = [] :=
  List.eq_nil_of_length_eq_zero (by rw [fPack_length]; omega)

theorem syncAt_frame (pre : Bitstream) (text : Text) (post : Bitstream) :
    SyncAt (pre ++ fBuild text ++ post) pre.length := by
  refine syncAt_iff_getElem?.mpr fun t ht => ?_
  have room : t < (fBuild text).length := by rw [fBuild_length]; omega
  rw [List.append_assoc, List.getElem?_append_right (Nat.le_add_right _ t), Nat.add_sub_cancel_left,
    List.getElem?_append_left room, fBuild_getElem?_of_lt text ht]

theorem fFsync_frame (text : Text) (post : Bitstream) : fFsync (fBuild text ++ post) = some 0 :=
  fFsync_eq_some_iff.mpr ⟨syncAt_frame [] text post, fun j hj => absurd hj (Nat.not_lt_zero j)⟩

/-- The bytes after the frame's own SYNCWORD. -/
theorem fPack_after_frame_sync (pre : Bitstream) (text : Text) (post : Bitstream) :
    fPack ((pre ++ fBuild text ++ post).drop (pre.length + 16)) = payloadBytes text ++ fPack post := by
  have sync : syncword.length = 16 := rfl
  rw [List.append_assoc, ← List.drop_drop, List.drop_left, fBuild, List.append_assoc, ← sync, List.drop_left,
    fPack_fUnpack_append]

theorem fParse_frame_found {pre post : Bitstream} {text : Text}
    (h : fFsync (pre ++ fBuild text ++ post) = some pre.length) (short : post.length ≤ 7) :
    fParse (pre ++ fBuild text ++ post) = checkDecoded (text ++ [fCrc8 (fRenc text)]) :=
  fParse_of_decoded h (by
    rw [fPack_after_frame_sync, fPack_eq_nil short, List.append_nil, payloadBytes, fRdec_fRenc])

/-- The text's own IntegrityByte passes the last test. -/
theorem checkDecoded_own_crc {text : Text} (h : Ascii text) :
    checkDecoded (text ++ [fCrc8 (fRenc text)]) = .ok text := by
  rw [checkDecoded_of_ascii h, if_neg (not_not_intro rfl)]

theorem fParse_frame_append_of_invalid {text : Text} {post : Bitstream}
    (h : fRdec (payloadBytes text ++ fPack post) = none) : fParse (fBuild text ++ post) = .malformedEncoding :=
  fParse_of_invalid (fFsync_frame text post) (by rw [← h]; exact congrArg fRdec (fPack_after_frame_sync [] text post))

/-! ## A match before the frame's own SYNCWORD (R169) -/

/-- The bits end in 10, place by place. -/
theorem suffix_one_zero_iff {pre : Bitstream} :
    [true, false] <:+ pre ↔ 2 ≤ pre.length ∧ ∀ t < 2, pre[pre.length - 2 + t]? = some (decide (t % 2 = 0)) := by
  rw [List.suffix_iff_getElem?]
  refine and_congr_right fun hl => forall₂_congr fun t ht => ?_
  have hl : 2 ≤ pre.length := hl
  have ht : t < 2 := ht
  have place : t + pre.length - 2 = pre.length - 2 + t := by omega
  rw [show [true, false].length = 2 from rfl, place]
  interval_cases t <;> rfl

/-- The match is two places early. -/
theorem syncAt_of_suffix_one_zero {pre : Bitstream} {text : Text} (h : [true, false] <:+ pre) :
    SyncAt (pre ++ fBuild text) (pre.length - 2) := by
  obtain ⟨hl, ends⟩ := suffix_one_zero_iff.mp h
  refine syncAt_iff_getElem?.mpr fun t ht => ?_
  by_cases h2 : t < 2
  · rw [List.getElem?_append_left (by omega), ends t h2]
  · rw [List.getElem?_append_right (by omega), show pre.length - 2 + t - pre.length = t - 2 by omega,
      fBuild_getElem?_of_lt text (by omega), show (t - 2) % 2 = t % 2 by omega]

/-- A match before the frame's own SYNCWORD lies within the bits before the frame, or overlaps it by an even shift. -/
theorem syncAt_before_frame {pre : Bitstream} {text : Text} {j : Nat} (h : SyncAt (pre ++ fBuild text) j)
    (hj : j < pre.length) :
    SyncAt pre j ∨ (pre.length < j + 16 ∧ (pre.length - j) % 2 = 0 ∧ [true, false] <:+ pre) := by
  rw [syncAt_iff_getElem?] at h
  have within {t : Nat} (ht : t < 16) (hp : j + t < pre.length) : pre[j + t]? = some (decide (t % 2 = 0)) := by
    rw [← h t ht, List.getElem?_append_left hp]
  by_cases inside : j + 16 ≤ pre.length
  · exact .inl (syncAt_iff_getElem?.mpr fun t ht => within ht (by omega))
  · have head := h (pre.length - j) (by omega)
    rw [List.getElem?_append_right (by omega), show j + (pre.length - j) - pre.length = 0 by omega,
      fBuild_getElem?_of_lt text (by decide)] at head
    have even : (pre.length - j) % 2 = 0 := by simpa using head
    refine .inr ⟨by omega, even, suffix_one_zero_iff.mpr ⟨by omega, fun t ht => ?_⟩⟩
    rw [show pre.length - 2 + t = j + (pre.length - j - 2 + t) by omega, within (by omega) (by omega),
      show (pre.length - j - 2 + t) % 2 = t % 2 by omega]

theorem fFsync_prefixed_frame_iff {pre : Bitstream} {text : Text} :
    fFsync (pre ++ fBuild text) = some pre.length ↔ (∀ i, ¬ SyncAt pre i) ∧ ¬ [true, false] <:+ pre := by
  have own : SyncAt (pre ++ fBuild text) pre.length := by simpa using syncAt_frame pre text []
  rw [fFsync_eq_some_iff, and_iff_right own]
  constructor
  · refine fun first => ⟨fun i hi => ?_, fun ends => ?_⟩
    · have room : i + 16 ≤ pre.length := hi.1
      refine first i (by omega) (syncAt_iff_getElem?.mpr fun t ht => ?_)
      rw [List.getElem?_append_left (by omega), syncAt_iff_getElem?.mp hi t ht]
    · obtain ⟨hl, -⟩ := suffix_one_zero_iff.mp ends
      exact first _ (by omega) (syncAt_of_suffix_one_zero ends)
  · rintro ⟨clear, ends⟩ j hj sync
    rcases syncAt_before_frame sync hj with inside | ⟨-, -, suffix⟩
    · exact clear j inside
    · exact ends suffix

/-- An early match leaves a 1 in front of the bytes. -/
theorem fParse_of_early_match {pre : Bitstream} {text : Text} {i : Nat} (h : fFsync (pre ++ fBuild text) = some i)
    (hi : i < pre.length) (overlap : pre.length < i + 16) (even : (pre.length - i) % 2 = 0) :
    fParse (pre ++ fBuild text) = .malformedEncoding := by
  refine fParse_of_invalid h (fRdec_fPack_of_leading_one ?_ ?_)
  · rw [List.length_drop, List.length_append, fBuild_length]
    omega
  · rw [List.getElem?_drop, List.getElem?_append_right (by omega), fBuild_getElem?_of_lt text (by omega),
      Option.some_inj, decide_eq_true_iff]
    omega

/-- The first match is at an even distance from the frame's own SYNCWORD, 2 to 14 places before it. -/
theorem exists_early_match {pre : Bitstream} (text : Text) (clear : ∀ i, ¬ SyncAt pre i)
    (ends : [true, false] <:+ pre) :
    ∃ i, fFsync (pre ++ fBuild text) = some i ∧ i + 2 ≤ pre.length ∧ pre.length < i + 16
      ∧ (pre.length - i) % 2 = 0 := by
  obtain ⟨hl, -⟩ := suffix_one_zero_iff.mp ends
  obtain ⟨i, hi, found⟩ := exists_fFsync_le (syncAt_of_suffix_one_zero (text := text) ends)
  obtain ⟨sync, -⟩ := fFsync_eq_some_iff.mp found
  rcases syncAt_before_frame sync (by omega) with inside | ⟨overlap, even, -⟩
  · exact absurd inside (clear i)
  · exact ⟨i, found, by omega, overlap, even⟩

/-! ## The operations -/

/-- PARSE in IDLE, where there is a payload (R167). -/
theorem exec_parse_of_payload {s : State} (idle : s.phase = .idle) {cause : Cause} {p : Text}
    (h : parseOp s = deliver cause p s) : exec .parse s =
      if fits s.cfg.tbCap p.length = true then .next { s with tb := p, resCode := cause, resVal := 0#32 }
      else .next { s with resCode := .badOperand, resVal := 0#32 } := exec_of_idle_ite idle h

end Sys2Proof.Machine
end

section
/-! PROOF. The statements of 42_framecodec. -/

namespace Sys2Proof.Machine

/-- Settles O27: the match is at 0, the bytes after it decode to the text and its IntegrityByte, and the text is tested
before the CRC. -/
theorem frameRoundTrip : Obligations.FrameRoundTrip := by
  unfold Obligations.FrameRoundTrip
  have parsed (text : Text) : fParse (fBuild text) = checkDecoded (text ++ [fCrc8 (fRenc text)]) := by
    simpa using fParse_frame_found (pre := []) (fFsync_frame text []) (Nat.zero_le 7)
  exact ⟨fun text h => (parsed text).trans (checkDecoded_own_crc h),
    fun text h => (parsed text).trans (checkDecoded_of_not_ascii h _)⟩

/-- Settles O25, by induction on the bits (`fFsync_eq_some_iff`). -/
theorem fsyncFindsTheFirstOccurrence : Obligations.FsyncFindsTheFirstOccurrence := by
  unfold Obligations.FsyncFindsTheFirstOccurrence
  refine fun bits => ⟨fun i => fFsync_eq_some_iff, fFsync_eq_none_iff, fun short => ?_⟩
  refine fFsync_eq_none_iff.mpr fun i ⟨room, _⟩ => ?_
  omega

/-- Settles O28: SYNCWORD agrees with itself at even shifts only (`syncAt_before_frame`), and after such a match the
bytes begin with a 1, which no printable byte does. -/
theorem bitsBeforeAFrame : Obligations.BitsBeforeAFrame := by
  unfold Obligations.BitsBeforeAFrame
  refine fun pre text ascii => ⟨fun found => ?_, fFsync_prefixed_frame_iff, fun clear ends => ?_⟩
  · rw [← List.append_nil (pre ++ fBuild text)] at found ⊢
    rw [fParse_frame_found found (Nat.zero_le 7), checkDecoded_own_crc ascii]
  · obtain ⟨i, found, early, overlap, even⟩ := exists_early_match text clear ends
    exact ⟨⟨i, found, early⟩, fParse_of_early_match found (by omega) overlap even⟩

/-- Settles O29: the bytes of the further bits are appended to those of the frame, where their number or one of them
rules out an encoding. -/
theorem bitsAfterAFrame : Obligations.BitsAfterAFrame := by
  unfold Obligations.BitsAfterAFrame
  refine fun text post ascii => ⟨fun short => ?_, fun count => ?_, ?_⟩
  · exact (fParse_frame_found (pre := []) (fFsync_frame text post) short).trans (checkDecoded_own_crc ascii)
  · refine fParse_frame_append_of_invalid (fRdec_eq_none_of_length ?_)
    rw [List.length_append, payloadBytes, fRenc_length, fPack_length]
    omega
  · rintro ⟨b, hb, value, pad⟩
    exact fParse_frame_append_of_invalid (fRdec_eq_none_of_foreign (List.mem_append_right _ hb) value pad)

/-- Settles O42: the operations in IDLE, PARSE for each result of F_PARSE. -/
theorem fsyncBuildAndParse : Obligations.FsyncBuildAndParse := by
  unfold Obligations.FsyncBuildAndParse
  refine ⟨fun s idle => ⟨fun h => ?_, fun i h wide => ?_, exec_of_idle_ite idle rfl, fun h => ?_, fun h => ?_,
    fun p h => exec_parse_of_payload idle (by rw [parseOp, h]),
    fun p h => exec_parse_of_payload idle (by rw [parseOp, h])⟩,
    reservedAbove_immWidth .fsync, reservedAbove_immWidth .build, reservedAbove_immWidth .parse⟩
  · rw [exec_of_idle idle, commandOp, fsyncOp, h]
    rfl
  · rw [exec_of_idle idle, commandOp, fsyncOp, h]
    simp only [toWord_of_lt wide]
    rfl
  all_goals
    rw [exec_of_idle idle, commandOp, parseOp, h]
    rfl

/-- Settles O43, test by test; a payload that is not refused is ASCII. -/
theorem parseTestsInTheSourcesOrder : Obligations.ParseTestsInTheSourcesOrder := by
  unfold Obligations.ParseTestsInTheSourcesOrder
  refine fun bits => ⟨fParse_of_not_found, fun i found => ⟨fParse_of_invalid found, fParse_of_decoded found,
    fun payload c decoded => ?_⟩⟩
  rw [fParse_of_decoded found decoded]
  refine ⟨fun high => checkDecoded_of_not_ascii (not_ascii_iff.mpr high) c, fun low mismatch => ?_,
    fun low agree => ?_⟩
  · rw [checkDecoded_of_ascii (ascii_iff_lt.mpr low), if_pos mismatch]
  · rw [checkDecoded_of_ascii (ascii_iff_lt.mpr low), if_neg (not_not_intro agree)]

end Sys2Proof.Machine
end

section
/-! SUPPORT. Laws for the statements of 43_channelsensor: what the classification and the decision are (R180, R191),
how many bits a recording gives (R129, R184), and the recording body in each case (R70, R182). -/

namespace Sys2Proof.Machine

/-! ## The classification and the decision (R180, R191) -/

theorem fClassify_eq_busy_iff {c : Cfg} {bits : Bitstream} :
    fClassify c bits = .busy ↔ c.noiseBits < bits.length := by
  simp [fClassify]

theorem fClassify_eq_free_iff {c : Cfg} {bits : Bitstream} :
    fClassify c bits = .free ↔ bits.length ≤ c.noiseBits := by
  simp [fClassify]

theorem chanWord_fClassify (c : Cfg) (bits : Bitstream) :
    chanWord (fClassify c bits) = if bits.length > c.noiseBits then 1#32 else 0#32 := by
  unfold fClassify
  split <;> rfl

theorem classifyOp_eq (s : State) : classifyOp s =
    { s with resCode := .ok, resVal := if s.bb.length > s.cfg.noiseBits then 1#32 else 0#32 } := by
  rw [classifyOp, chanWord_fClassify]
  rfl

theorem actionWord_fDecide (hasEntry : Bit) (chan : ChanState) :
    actionWord (fDecide hasEntry chan) = if hasEntry = true ∧ chan = .free then 1#32 else 0#32 := by
  cases hasEntry <;> cases chan <;> rfl

/-! ## The bits of a recording (R129, R184) -/

/-- F_DEMOD keeps one bit for each chunk that decodes. -/
theorem fDemod_length_eq_countP (num : Numerics) (c : Cfg) (x : List Sample) :
    (fDemod num c x).length = (List.range (x.length / chunkLen c)).countP fun j =>
      (fDecbit num c ((x.drop (j * chunkLen c)).take (chunkLen c))).isSome := by
  rw [fDemod, chunks, List.filterMap_map, List.length_filterMap_eq_countP]
  rfl

/-! ## The recording (R70) -/

theorem audioRecord_zero (s : State) : audioRecord 0 s = (some [], s.logCall (.audioRecord 0 .ok)) := rfl

section
variable {n : Nat} {s : State}

theorem audioRecord_of_ok {heard : List Sample} (hn : n ≠ 0) (answer : (nextRecord s).1 = .ok heard) :
    audioRecord n s = (some (recording n s.env.draws heard),
      s.withEnv (({ s.env with records := s.env.records.tail }).after (.audioRecord n .ok))) := by
  simp only [audioRecord, hn, answer, if_false]
  rw [nextRecord_eq]
  rfl

theorem audioRecord_of_fail (hn : n ≠ 0) (answer : (nextRecord s).1 = .fail) :
    audioRecord n s = (none,
      s.withEnv (({ s.env with records := s.env.records.tail }).after (.audioRecord n .fail))) := by
  simp only [audioRecord, hn, answer, if_false]
  rw [nextRecord_eq]
  rfl

end

/-! ## The recording body (R182) -/

/-- The capacities let a recording of `n` samples, and as many bits as it has chunks, be kept. -/
def roomToRecord (c : Cfg) (n : Nat) : Bool := fits c.sbCap n && fits c.bbCap (n / chunkLen c)

section
variable {num : Numerics} {ms : Nat} {s t : State}

theorem captureBody_of_no_room (room : roomToRecord s.cfg (samplesOf s.cfg ms) = false) :
    captureBody num ms s = .tooLarge s := if_neg (Bool.eq_false_iff.mp room)

theorem captureBody_of_recorded {x : List Sample} (room : roomToRecord s.cfg (samplesOf s.cfg ms) = true)
    (recorded : audioRecord (samplesOf s.cfg ms) s = (some x, t)) :
    captureBody num ms s = .done ((t.setSb x).setBb (fDemod num s.cfg x)) := by
  refine (if_pos room).trans ?_
  rw [recorded]

theorem captureBody_of_failed (room : roomToRecord s.cfg (samplesOf s.cfg ms) = true)
    (failed : audioRecord (samplesOf s.cfg ms) s = (none, t)) :
    captureBody num ms s = .deviceFailed t := by
  refine (if_pos room).trans ?_
  rw [failed]

end

/-! ## SENSE -/

/-- SENSE in IDLE is the recording body and then, where that is done, CLASSIFY. -/
theorem exec_sense_of_body {ms : Nat} {s : State} {b : Body} (idle : s.phase = .idle)
    (body : captureBody theNum ms s = b) :
    exec (.sense ms) s = .next (endCommand .capture .captureFailure b classifyOp) := by
  rw [exec_of_idle idle, commandOp, senseOp, body]

end Sys2Proof.Machine
end

section
/-! PROOF. The statements of 43_channelsensor. -/

namespace Sys2Proof.Machine

/-- Settles O35: a recording has as many bits as chunks that decode, so never more than chunks. -/
theorem sensorIsBusyAboveTheNoiseFloor : Obligations.SensorIsBusyAboveTheNoiseFloor := by
  unfold Obligations.SensorIsBusyAboveTheNoiseFloor
  refine fun num c x => ⟨?_, fun short => fClassify_eq_free_iff.mpr ((fDemod_length_le num c x).trans short)⟩
  rw [fClassify_eq_busy_iff, fDemod_length_eq_countP, Nat.succ_le_iff]

/-- Settles O44: the operations in IDLE, with the words of the classification and of the decision. -/
theorem classifyAndDecideOnlyAnswer : Obligations.ClassifyAndDecideOnlyAnswer := by
  unfold Obligations.ClassifyAndDecideOnlyAnswer
  refine ⟨fun s idle => ?_, fun e ch s idle => ?_, reservedAbove_immWidth .classify,
    reservedAbove_immWidth (.decideAct false .free)⟩
  · rw [exec_of_idle idle, commandOp, classifyOp_eq]
  · rw [exec_of_idle idle, commandOp, decideOp, actionWord_fDecide]
    rfl

/-- Settles O45, case by case of the recording body: no room, nothing to record, samples heard, a failure. -/
theorem senseRecordsAndClassifies : Obligations.SenseRecordsAndClassifies := by
  unfold Obligations.SenseRecordsAndClassifies
  rintro ms _ s idle rfl
  refine ⟨fun noRoom => exec_sense_of_body idle (captureBody_of_no_room noRoom),
    fun room => ⟨fun zero => ?_, fun heard nonzero answer => ?_, fun nonzero answer => ?_⟩⟩
  · have recorded : audioRecord (samplesOf s.cfg ms) s = (some [], s.logCall (.audioRecord 0 .ok)) := by
      rw [samplesOf, zero, audioRecord_zero]
    rw [exec_sense_of_body idle (captureBody_of_recorded room recorded), endCommand, classifyOp_eq, fDemod_nil]
    rfl
  · refine ⟨recording _ s.env.draws heard, recording_length _ _ _, recording_take _ _ _, recording_exact, ?_⟩
    rw [exec_sense_of_body idle (captureBody_of_recorded room (audioRecord_of_ok nonzero answer)), endCommand,
      classifyOp_eq]
    rfl
  · exact exec_sense_of_body idle (captureBody_of_failed room (audioRecord_of_fail nonzero answer))

end Sys2Proof.Machine
end

section
/-! SUPPORT. Laws for the statements of 44_scheduler: the calls and the bodies of the scheduler's actions in each case
(R195 to R198), and the commands and the steps of a tick made of them (R203). -/

namespace Sys2Proof.Machine

/-! ## The calls (R71 to R73) -/

theorem OfEnv.same_fst {α : Type} {f : State → α × State} (hf : OfEnv f) {s t : State} (h : t.env = s.env) :
    (f t).1 = (f s).1 := by
  rw [hf s t h]

theorem audioPlay_eq (x : List Sample) (s : State) : audioPlay x s = ((nextPlay s).1,
    s.withEnv (({ s.env with plays := s.env.plays.tail }).after (.audioPlay x (nextPlay s).1))) := by
  rw [audioPlay, nextPlay_eq]
  rfl

theorem outboxFirst_eq (s : State) : outboxFirst s = (listingOf s.env.outbox (nextFirst s).1,
    s.withEnv (({ s.env with firsts := s.env.firsts.tail }).after
      (.outboxFirst (listingOf s.env.outbox (nextFirst s).1)))) := by
  rw [outboxFirst, nextFirst_eq]
  rfl

/-- An entry that is present is the one its own index picks. -/
theorem getElem?_mod_length {α : Type} {xs : List α} {k : Nat} {x : α} (h : xs[k]? = some x) :
    xs[k % xs.length]? = some x := by
  obtain ⟨hk, -⟩ := List.getElem?_eq_some_iff.mp h
  rwa [Nat.mod_eq_of_lt hk]

/-! ## The outbox body, CHKOUT and T_CHECK (R195) -/

section
variable {s : State}

theorem checkBody_of_fail (answer : (nextFirst s).1 = .fail) : checkBody s =
    .deviceFailed (s.withEnv (({ s.env with firsts := s.env.firsts.tail }).after (.outboxFirst .fail))) := by
  rw [checkBody, outboxFirst_eq, answer]
  rfl

theorem checkBody_of_empty {k : Nat} (answer : (nextFirst s).1 = .pick k) (empty : s.env.outbox = []) : checkBody s =
    .done (s.withEnv (({ s.env with firsts := s.env.firsts.tail }).after (.outboxFirst .none))).clearEntry := by
  rw [checkBody, outboxFirst_eq, answer, empty]
  rfl

theorem checkBody_of_found {k : Nat} {e : Entry} (answer : (nextFirst s).1 = .pick k)
    (found : s.env.outbox[k % s.env.outbox.length]? = some e) {t : State}
    (called : t = s.withEnv (({ s.env with firsts := s.env.firsts.tail }).after
      (.outboxFirst (.some e.handle e.text)))) :
    checkBody s = if fits s.cfg.tbCap e.text.length = true then .done ((t.setEntry e.handle).setTb e.text)
      else .tooLarge t := by
  have listed : listingOf s.env.outbox (.pick k) = .some e.handle e.text := by rw [listingOf, found]
  rw [checkBody, outboxFirst_eq, answer, listed, called]

theorem exec_chkout_of_body {b : Body} (idle : s.phase = .idle) (body : checkBody s = b) : exec .chkout s =
    .next (endCommand .outbox .outboxFailure b fun t => t.setRes .ok (if t.entryV then 1#32 else 0#32)) := by
  rw [exec_of_idle idle, commandOp, chkoutOp, body]

theorem sequencerStep_of_check (num : Numerics) {b : Body} (check : s.phase = .tCheck)
    (body : checkBody (clearTick s) = b) : sequencerStep num s =
      endTickStep .outbox .outboxFailure b fun t => t.setPhase (if t.entryV then .tSense else .tListen) := by
  rw [sequencerStep, check, ← body]
  rfl

@[simp] theorem clearTick_cfg (s : State) : (clearTick s).cfg = s.cfg := rfl

/-- The outbox does not see the clearing at the head of a tick. -/
theorem nextFirst_clearTick (s : State) : (nextFirst (clearTick s)).1 = (nextFirst s).1 :=
  ofEnv_nextFirst.same_fst rfl

end

/-! ## The sense step (R203) -/

section
variable {num : Numerics} {s : State}

theorem sequencerStep_of_sense {b : Body} (sense : s.phase = .tSense)
    (body : captureBody num s.cfg.tSenseMs s = b) :
    sequencerStep num s = endTickStep .capture .captureFailure b senseDone := by
  rw [sequencerStep, sense, ← body]
  rfl

theorem senseDone_of_free (quiet : s.bb.length ≤ s.cfg.noiseBits) :
    senseDone s = { s with chanV := true, chan := .free, phase := .tXmit } := by
  rw [senseDone, fClassify_eq_free_iff.mpr quiet]

theorem senseDone_of_busy (noisy : s.cfg.noiseBits < s.bb.length) : senseDone s =
    { s with chanV := true, chan := .busy, resCode := .channelBusyContention, phase := .tListen } := by
  rw [senseDone, fClassify_eq_busy_iff.mpr noisy]

end

/-! ## The transmit body, XMIT and T_XMIT (R196) -/

/-- The capacities let a frame and its samples be kept. -/
def roomToSend (c : Cfg) (frame : Bitstream) : Bool :=
  fits c.bbCap frame.length && fits c.sbCap (chunkLen c * frame.length)

section
variable {num : Numerics} {s : State}

theorem xmitBody_of_no_room (room : roomToSend s.cfg (fBuild s.tb) = false) : xmitBody num s = .tooLarge s :=
  if_neg (Bool.eq_false_iff.mp room)

/-- The frame is played, and the device's answer decides how the body ends. -/
theorem xmitBody_of_room (room : roomToSend s.cfg (fBuild s.tb) = true) {r : Reply} (answer : (nextPlay s).1 = r)
    {t : State} (called : t = { s with
      bb := fBuild s.tb, sb := fMod num s.cfg (fBuild s.tb)
      env := ({ s.env with plays := s.env.plays.tail }).after (.audioPlay (fMod num s.cfg (fBuild s.tb)) r) }) :
    xmitBody num s = if r = .ok then .done t else .deviceFailed t := by
  have same : (nextPlay ((s.setBb (fBuild s.tb)).setSb (fMod num s.cfg (fBuild s.tb)))).1 = (nextPlay s).1 :=
    ofEnv_nextPlay.same_fst rfl
  refine (if_pos room).trans ?_
  rw [audioPlay_eq, same, answer, called]
  cases r <;> rfl

theorem exec_xmit_of_body {b : Body} (idle : s.phase = .idle) (body : xmitBody theNum s = b) :
    exec .xmit s = .next (endCommand .play .playbackFailure b fun t => t.setRes .ok 0#32) := by
  rw [exec_of_idle idle, commandOp, xmitOp, body]

theorem sequencerStep_of_xmit {b : Body} (xmit : s.phase = .tXmit) (body : xmitBody num s = b) :
    sequencerStep num s = endTickStep .play .playbackFailure b fun t => t.setPhase .tRemove := by
  rw [sequencerStep, xmit, ← body]
  rfl

end

/-! ## The removal, REMOVE and T_REMOVE (R197) -/

section
variable {s : State}

theorem removeEntry_of_ok (answer : (nextRemove s).1 = .ok) : removeEntry s = (.ok,
    { s with
      entryV := false
      env := ({ s.env with
        removes := s.env.removes.tail, outbox := withoutEntry s.entryH s.env.outbox }).after
        (.outboxRemove s.entryH .ok) }) := by
  simp only [removeEntry, outboxRemove, answer]
  rw [nextRemove_eq]
  rfl

theorem removeEntry_of_fail (answer : (nextRemove s).1 = .fail) : removeEntry s = (.fail,
    { s with
      entryV := false, rmfail := true
      env := ({ s.env with removes := s.env.removes.tail }).after (.outboxRemove s.entryH .fail) }) := by
  simp only [removeEntry, outboxRemove, answer]
  rw [nextRemove_eq]
  rfl

theorem exec_remove_of_no_entry (idle : s.phase = .idle) (vacant : s.entryV = false) :
    exec .remove s = .next (refuse .badOperand s) := by
  rw [exec_of_idle idle, commandOp, removeOp, vacant]
  rfl

theorem exec_remove_of_entry (idle : s.phase = .idle) (held : s.entryV = true) {r : Reply} {t : State}
    (removal : removeEntry s = (r, t)) :
    exec .remove s = .next (t.setRes (if r = .ok then .ok else .removeFailure) 0#32) := by
  rw [exec_of_idle idle, commandOp, removeOp, held, removal]
  cases r <;> rfl

theorem sequencerStep_of_remove (num : Numerics) (remove : s.phase = .tRemove) {r : Reply} {t : State}
    (removal : removeEntry s = (r, t)) : sequencerStep num s =
      { t with
        resCode := if r = .ok then t.resCode else .removeFailure
        outcome := .transmittedThisTick, phase := .tEnd } := by
  rw [sequencerStep, remove]
  simp only [tRemove, removal]
  cases r <;> rfl

end

/-! ## The listen body, LISTEN and T_LISTEN (R198) -/

section
variable {ms : Nat} {s t : State}

theorem listenBody_of_recorded {x : List Sample} (recorded : audioRecord (samplesOf s.cfg ms) s = (some x, t)) :
    listenBody ms s = .done t := by
  rw [listenBody, recorded]

theorem listenBody_of_failed (failed : audioRecord (samplesOf s.cfg ms) s = (none, t)) :
    listenBody ms s = .deviceFailed t := by
  rw [listenBody, failed]

theorem exec_listen_of_body {b : Body} (idle : s.phase = .idle) (body : listenBody ms s = b) :
    exec (.listen ms) s = .next (endCommand .capture .captureFailure b fun t => t.setRes .ok 0#32) := by
  rw [exec_of_idle idle, commandOp, listenOp, body]

theorem sequencerStep_of_listen (num : Numerics) {b : Body} (listen : s.phase = .tListen)
    (body : listenBody s.cfg.tListenMs s = b) : sequencerStep num s =
      endTickStep .capture .captureFailure b fun t => { t with outcome := .listenedThisTick, phase := .tEnd } := by
  rw [sequencerStep, listen, ← body]
  rfl

/-- A recording of 0 samples asks the device nothing. -/
theorem audioRecord_of_zero {n : Nat} (zero : n = 0) : audioRecord n s = (some [], s.logCall (.audioRecord 0 .ok)) := by
  rw [zero, audioRecord_zero]

end

/-! ## The ends of a tick (R202, R203) -/

section
variable (num : Numerics) {s : State}

theorem sequencerStep_of_end (ended : s.phase = .tEnd) : sequencerStep num s = tEnd s := by
  rw [sequencerStep, ended]

theorem sequencerStep_of_gap (gap : s.phase = .tGap) : sequencerStep num s = tGap s := by
  rw [sequencerStep, gap]

end

end Sys2Proof.Machine
end

section
/-! PROOF. The statements of 44_scheduler about the actions and the steps of a tick. -/

namespace Sys2Proof.Machine

/-- Settles O47, case by case of the outbox body: a failed listing, no entry, an entry. -/
theorem chkoutTakesOverAnEntry : Obligations.ChkoutTakesOverAnEntry := by
  unfold Obligations.ChkoutTakesOverAnEntry
  refine fun s idle => ⟨fun answer => exec_chkout_of_body idle (checkBody_of_fail answer),
    fun k answer empty => exec_chkout_of_body idle (checkBody_of_empty answer empty), fun k e answer found => ?_⟩
  rw [exec_chkout_of_body idle (checkBody_of_found answer found rfl)]
  split <;> rfl

/-- Settles O48, case by case of the transmit body: no room, or the frame played with the device's answer. -/
theorem xmitPlaysTheFrameOfTb : Obligations.XmitPlaysTheFrameOfTb := by
  unfold Obligations.XmitPlaysTheFrameOfTb
  exact fun s idle => ⟨fun noRoom => exec_xmit_of_body idle (xmitBody_of_no_room noRoom),
    fun room => ⟨fun answer => exec_xmit_of_body idle (xmitBody_of_room room answer rfl),
      fun answer => exec_xmit_of_body idle (xmitBody_of_room room answer rfl)⟩⟩

/-- Settles O49: without an entry, and with one by the answer of the outbox. -/
theorem removeDeletesTheEntry : Obligations.RemoveDeletesTheEntry := by
  unfold Obligations.RemoveDeletesTheEntry
  exact fun s idle => ⟨exec_remove_of_no_entry idle,
    fun held answer => exec_remove_of_entry idle held (removeEntry_of_ok answer),
    fun held answer => exec_remove_of_entry idle held (removeEntry_of_fail answer)⟩

/-- Settles O50, case by case of the recording: nothing to record, samples heard, a failure. -/
theorem listenDiscardsTheSamples : Obligations.ListenDiscardsTheSamples := by
  unfold Obligations.ListenDiscardsTheSamples
  rintro ms _ s idle rfl
  exact ⟨fun zero => exec_listen_of_body idle (listenBody_of_recorded (audioRecord_of_zero zero)),
    fun heard nonzero answer => exec_listen_of_body idle (listenBody_of_recorded (audioRecord_of_ok nonzero answer)),
    fun nonzero answer => exec_listen_of_body idle (listenBody_of_failed (audioRecord_of_fail nonzero answer))⟩

/-- Settles O51: the two operations in IDLE. -/
theorem tickAndRunStartTheSequencer : Obligations.TickAndRunStartTheSequencer := by
  unfold Obligations.TickAndRunStartTheSequencer
  exact fun s idle => ⟨exec_of_idle idle .tick, exec_of_idle idle .run⟩

/-- Settles O52, case by case of the outbox body on the cleared state. -/
theorem checkStepOfATick : Obligations.CheckStepOfATick := by
  unfold Obligations.CheckStepOfATick
  intro num s check
  simp only [← nextFirst_clearTick s]
  refine ⟨fun answer => sequencerStep_of_check num check (checkBody_of_fail answer),
    fun k answer empty => sequencerStep_of_check num check (checkBody_of_empty answer empty),
    fun k e answer found => ?_⟩
  rw [sequencerStep_of_check num check (checkBody_of_found answer found rfl), clearTick_cfg]
  split <;> rfl

/-- Settles O53, case by case of the recording body, and Free or Busy by the number of bits. -/
theorem senseStepOfATick : Obligations.SenseStepOfATick := by
  unfold Obligations.SenseStepOfATick
  rintro num s _ sense rfl
  refine ⟨fun noRoom => sequencerStep_of_sense sense (captureBody_of_no_room noRoom),
    fun room => ⟨fun zero => ?_,
      fun nonzero failed =>
        sequencerStep_of_sense sense (captureBody_of_failed room (audioRecord_of_fail nonzero failed)),
      fun heard nonzero answer => ⟨recording _ s.env.draws heard, recording_length _ _ _, recording_take _ _ _,
        recording_exact, fun quiet => ?_, fun noisy => ?_⟩⟩, rfl, rfl⟩
  · rw [sequencerStep_of_sense sense (captureBody_of_recorded room (audioRecord_of_zero zero)), endTickStep,
      fDemod_nil, senseDone_of_free (Nat.zero_le _)]
    rfl
  · rw [sequencerStep_of_sense sense (captureBody_of_recorded room (audioRecord_of_ok nonzero answer)), endTickStep,
      senseDone_of_free quiet]
    rfl
  · rw [sequencerStep_of_sense sense (captureBody_of_recorded room (audioRecord_of_ok nonzero answer)), endTickStep,
      senseDone_of_busy noisy]
    rfl

/-- Settles O54: T_XMIT case by case of the transmit body, T_REMOVE by the answer of the outbox. -/
theorem xmitAndRemoveStepsOfATick : Obligations.XmitAndRemoveStepsOfATick := by
  unfold Obligations.XmitAndRemoveStepsOfATick
  exact fun num s => ⟨fun xmit => ⟨fun noRoom => sequencerStep_of_xmit xmit (xmitBody_of_no_room noRoom),
      fun room => ⟨fun answer => sequencerStep_of_xmit xmit (xmitBody_of_room room answer rfl),
        fun answer => sequencerStep_of_xmit xmit (xmitBody_of_room room answer rfl)⟩⟩,
    fun remove => ⟨fun answer => sequencerStep_of_remove num remove (removeEntry_of_ok answer),
      fun answer => sequencerStep_of_remove num remove (removeEntry_of_fail answer)⟩⟩

/-- Settles O55: T_LISTEN case by case of the recording, T_END by the outcome. -/
theorem listenEndAndGapStepsOfATick : Obligations.ListenEndAndGapStepsOfATick := by
  unfold Obligations.ListenEndAndGapStepsOfATick
  refine fun num s => ⟨?_, fun ended => ?_, sequencerStep_of_gap num⟩
  · rintro _ listen rfl
    exact ⟨fun zero => sequencerStep_of_listen num listen (listenBody_of_recorded (audioRecord_of_zero zero)),
      fun heard nonzero answer =>
        sequencerStep_of_listen num listen (listenBody_of_recorded (audioRecord_of_ok nonzero answer)),
      fun nonzero answer =>
        sequencerStep_of_listen num listen (listenBody_of_failed (audioRecord_of_fail nonzero answer))⟩
  · rw [sequencerStep_of_end num ended, tEnd]
    cases s.outcome <;> rfl

end Sys2Proof.Machine
end

section
/-! SUPPORT. Laws for the statements of 44_scheduler about whole ticks: how a step of a tick can end, when a tick is
over (R201, R205(e)), and which steps play, remove or change the outbox (R205 (a), (b)). -/

namespace Sys2Proof.Machine

/-! ## How a step can end, and what it keeps (R203) -/

/-- A step made of a body and an end is in HALT, or its body is done and its end was reached. -/
theorem endTickStep_cases (flag : FaultFlag) (cause : Cause) (b : Body) (done : State → State) :
    (endTickStep flag cause b done).phase = .halt ∨ ∃ u, b = .done u ∧ endTickStep flag cause b done = done u := by
  cases b with
  | done u => exact .inr ⟨u, rfl, rfl⟩
  | tooLarge u => exact .inl rfl
  | deviceFailed u => exact .inl rfl

theorem endTickStep_env (flag : FaultFlag) (cause : Cause) (b : Body) {done : State → State}
    (hd : ∀ u, (done u).env = u.env) : (endTickStep flag cause b done).env = b.state.env := by
  cases b with
  | done u => exact hd u
  | tooLarge u => exact raiseFault_env _ _ u
  | deviceFailed u => exact raiseFault_env _ _ u

theorem raiseFault_loop (flag : FaultFlag) (cause : Cause) (s : State) : (raiseFault flag cause s).loop = s.loop := by
  rw [raiseFault_eq]

theorem endTickStep_loop (flag : FaultFlag) (cause : Cause) {b : Body} {s : State} (written : BufferWrite s b.state)
    {done : State → State} (hd : ∀ u, (done u).loop = u.loop) : (endTickStep flag cause b done).loop = s.loop := by
  have kept : b.state.loop = s.loop := by rw [written.rest_kept]
  cases b with
  | done u => exact (hd u).trans kept
  | tooLarge u => exact (raiseFault_loop _ _ u).trans kept
  | deviceFailed u => exact (raiseFault_loop _ _ u).trans kept

theorem senseDone_cases (u : State) :
    senseDone u = { u with chanV := true, chan := .busy, resCode := .channelBusyContention, phase := .tListen }
      ∨ senseDone u = { u with chanV := true, chan := .free, phase := .tXmit } :=
  (Nat.lt_or_ge u.cfg.noiseBits u.bb.length).imp senseDone_of_busy senseDone_of_free

theorem senseDone_env (u : State) : (senseDone u).env = u.env := by
  rcases senseDone_cases u with e | e <;> rw [e]

theorem senseDone_loop (u : State) : (senseDone u).loop = u.loop := by
  rcases senseDone_cases u with e | e <;> rw [e]

/-- The step of T_REMOVE asks for one removal, and the tick ends TransmittedThisTick whatever the answer. -/
theorem sequencerStep_of_remove_ends (num : Numerics) {s : State} (remove : s.phase = .tRemove) :
    ∃ r, (sequencerStep num s).env.calls = .outboxRemove s.entryH r :: s.env.calls
      ∧ (sequencerStep num s).loop = s.loop ∧ (sequencerStep num s).phase = .tEnd
      ∧ (sequencerStep num s).outcome = .transmittedThisTick := by
  refine ⟨(nextRemove s).1, ?_⟩
  cases answer : (nextRemove s).1 with
  | ok =>
    rw [sequencerStep_of_remove num remove (removeEntry_of_ok answer)]
    exact ⟨rfl, rfl, rfl, rfl⟩
  | fail =>
    rw [sequencerStep_of_remove num remove (removeEntry_of_fail answer)]
    exact ⟨rfl, rfl, rfl, rfl⟩

/-- Only a command writes LOOP (R199, R200). -/
theorem sequencerStep_loop (num : Numerics) (s : State) : (sequencerStep num s).loop = s.loop := by
  cases phase : s.phase with
  | idle => rw [sequencerStep_of_idle num phase]
  | halt => rw [sequencerStep, phase]
  | tCheck =>
    rw [sequencerStep_of_check num phase rfl]
    exact endTickStep_loop (s := clearTick s) _ _ (bufferWrite_checkBody _) fun _ => rfl
  | tSense =>
    rw [sequencerStep_of_sense phase rfl]
    exact endTickStep_loop _ _ (bufferWrite_captureBody num _ s) senseDone_loop
  | tXmit =>
    rw [sequencerStep_of_xmit phase rfl]
    exact endTickStep_loop _ _ (bufferWrite_xmitBody num s) fun _ => rfl
  | tRemove =>
    obtain ⟨-, -, loop, -⟩ := sequencerStep_of_remove_ends num phase
    exact loop
  | tListen =>
    rw [sequencerStep_of_listen num phase rfl]
    exact endTickStep_loop _ _ (bufferWrite_listenBody _ s) fun _ => rfl
  | tEnd =>
    rw [sequencerStep_of_end num phase]
    rfl
  | tGap =>
    rw [sequencerStep_of_gap num phase]
    rfl

/-! ## When a tick is over (R201, R205(e)) -/

/-- A tick started with LOOP = `l` is over: in HALT, or in the phase that T_END leaves, with one of the two outcomes
and its code in RES_VAL. -/
def TickOver (l : Bit) (s : State) : Prop :=
  s.phase = .halt ∨ (s.phase = (if l = true then .tGap else .idle)
    ∧ ((s.outcome = .transmittedThisTick ∧ s.resVal = 1#32) ∨ (s.outcome = .listenedThisTick ∧ s.resVal = 2#32)))

/-- From `s` the tick is over after at most `k` steps of the sequencer. -/
def TickEndsWithin (num : Numerics) (k : Nat) (s : State) : Prop :=
  ∃ j ≤ k, TickOver s.loop (sequencerRun num j s)

section
variable {num : Numerics} {k m : Nat} {s : State}

theorem tickEndsWithin_of_halt (k : Nat) (halted : s.phase = .halt) : TickEndsWithin num k s :=
  ⟨0, Nat.zero_le k, .inl halted⟩

theorem TickEndsWithin.mono (h : TickEndsWithin num k s) (hkm : k ≤ m) : TickEndsWithin num m s := by
  obtain ⟨j, hj, ended⟩ := h
  exact ⟨j, hj.trans hkm, ended⟩

theorem tickEndsWithin_succ (h : TickEndsWithin num k (sequencerStep num s)) : TickEndsWithin num (k + 1) s := by
  obtain ⟨j, hj, ended⟩ := h
  exact ⟨j + 1, Nat.succ_le_succ hj, sequencerStep_loop num s ▸ ended⟩

/-- A fault is the end of the tick, so of a step made of a body and an end only the end matters. -/
theorem tickEndsWithin_of_endTickStep {flag : FaultFlag} {cause : Cause} {b : Body} {done : State → State}
    (step : sequencerStep num s = endTickStep flag cause b done) (reached : ∀ u, TickEndsWithin num k (done u)) :
    TickEndsWithin num (k + 1) s := by
  refine tickEndsWithin_succ ?_
  rw [step]
  rcases endTickStep_cases flag cause b done with halted | ⟨u, -, ended⟩
  · exact tickEndsWithin_of_halt k halted
  · exact ended ▸ reached u

theorem tickEndsWithin_of_end (ended : s.phase = .tEnd) (decided : s.outcome ≠ .none) : TickEndsWithin num 1 s := by
  refine ⟨1, le_rfl, .inr ?_⟩
  rw [sequencerRun, sequencerRun, sequencerStep_of_end num ended]
  refine ⟨rfl, ?_⟩
  cases outcome : s.outcome with
  | none => exact absurd outcome decided
  | transmittedThisTick => exact .inl ⟨outcome, by rw [tEnd, outcome]; rfl⟩
  | listenedThisTick => exact .inr ⟨outcome, by rw [tEnd, outcome]; rfl⟩

theorem tickEndsWithin_of_listen (listen : s.phase = .tListen) : TickEndsWithin num 2 s :=
  tickEndsWithin_of_endTickStep (sequencerStep_of_listen num listen rfl) fun _ =>
    tickEndsWithin_of_end rfl TickOutcome.noConfusion

theorem tickEndsWithin_of_remove (remove : s.phase = .tRemove) : TickEndsWithin num 2 s := by
  obtain ⟨-, -, -, ended, outcome⟩ := sequencerStep_of_remove_ends num remove
  exact tickEndsWithin_succ (tickEndsWithin_of_end ended (by rw [outcome]; decide))

theorem tickEndsWithin_of_xmit (xmit : s.phase = .tXmit) : TickEndsWithin num 3 s :=
  tickEndsWithin_of_endTickStep (sequencerStep_of_xmit xmit rfl) fun _ => tickEndsWithin_of_remove rfl

theorem tickEndsWithin_of_sense (sense : s.phase = .tSense) : TickEndsWithin num 4 s := by
  refine tickEndsWithin_of_endTickStep (sequencerStep_of_sense sense rfl) fun u => ?_
  rcases senseDone_cases u with e | e <;> rw [e]
  · exact (tickEndsWithin_of_listen rfl).mono (by decide)
  · exact tickEndsWithin_of_xmit rfl

theorem tickEndsWithin_of_check (check : s.phase = .tCheck) : TickEndsWithin num 5 s := by
  refine tickEndsWithin_of_endTickStep (sequencerStep_of_check num check rfl) fun u => ?_
  cases u.entryV with
  | true => exact tickEndsWithin_of_sense rfl
  | false => exact (tickEndsWithin_of_listen rfl).mono (by decide)

end

/-! ## What is played, removed and deleted (R205 (a), (b)) -/

/-- Nothing was played, removed or deleted from the outbox between two environments. -/
structure NothingSent (e e' : Env) : Prop where
  played_same : played e'.calls = played e.calls
  removals_same : removals e'.calls = removals e.calls
  outbox_same : e'.outbox = e.outbox

theorem NothingSent.refl (e : Env) : NothingSent e e := ⟨rfl, rfl, rfl⟩

theorem NothingSent.endTickStep {e : Env} {b : Body} (sent : NothingSent e b.state.env) (flag : FaultFlag)
    (cause : Cause) {done : State → State} (hd : ∀ u, (done u).env = u.env) :
    NothingSent e (endTickStep flag cause b done).env := by
  rwa [endTickStep_env flag cause b hd]

section
variable (s : State)

theorem nothingSent_audioRecord (n : Nat) : NothingSent s.env (audioRecord n s).2.env := by
  by_cases hn : n = 0
  · rw [audioRecord_of_zero hn]
    exact ⟨rfl, rfl, rfl⟩
  · cases answer : (nextRecord s).1 with
    | ok heard =>
      rw [audioRecord_of_ok hn answer]
      exact ⟨rfl, rfl, rfl⟩
    | fail =>
      rw [audioRecord_of_fail hn answer]
      exact ⟨rfl, rfl, rfl⟩

theorem nothingSent_listenBody (ms : Nat) : NothingSent s.env (listenBody ms s).state.env := by
  have sent := nothingSent_audioRecord s (samplesOf s.cfg ms)
  rcases recorded : audioRecord (samplesOf s.cfg ms) s with ⟨_ | x, t⟩ <;> rw [recorded] at sent
  · rwa [listenBody_of_failed recorded]
  · rwa [listenBody_of_recorded recorded]

theorem nothingSent_captureBody (num : Numerics) (ms : Nat) : NothingSent s.env (captureBody num ms s).state.env := by
  have sent := nothingSent_audioRecord s (samplesOf s.cfg ms)
  cases room : roomToRecord s.cfg (samplesOf s.cfg ms) with
  | false =>
    rw [captureBody_of_no_room room]
    exact .refl s.env
  | true =>
    rcases recorded : audioRecord (samplesOf s.cfg ms) s with ⟨_ | x, t⟩ <;> rw [recorded] at sent
    · rwa [captureBody_of_failed room recorded]
    · rwa [captureBody_of_recorded room recorded]

theorem nothingSent_checkBody : NothingSent s.env (checkBody s).state.env := by
  have same : (checkBody s).state.env = (outboxFirst s).2.env := by
    unfold checkBody
    rcases outboxFirst s with ⟨_ | _ | _, t⟩
    · rfl
    · dsimp only
      split <;> rfl
    · rfl
  rw [same, outboxFirst_eq]
  exact ⟨rfl, rfl, rfl⟩

/-- The transmit body asks the device nothing, or for one playback of the frame of TB. -/
theorem xmitBody_env (num : Numerics) : (xmitBody num s).state.env = s.env
    ∨ ∃ r, (xmitBody num s).state.env = ({ s.env with plays := s.env.plays.tail }).after
      (.audioPlay (fMod num s.cfg (fBuild s.tb)) r) := by
  cases room : roomToSend s.cfg (fBuild s.tb) with
  | false =>
    rw [xmitBody_of_no_room room]
    exact .inl rfl
  | true =>
    refine .inr ⟨(nextPlay s).1, ?_⟩
    rw [xmitBody_of_room room rfl rfl]
    split <;> rfl

/-- The transmit body is done when the playback of the frame of TB returned ok (R196). -/
theorem xmitBody_eq_done {num : Numerics} {u : State} (h : xmitBody num s = .done u) : u = { s with
    bb := fBuild s.tb, sb := fMod num s.cfg (fBuild s.tb)
    env := ({ s.env with plays := s.env.plays.tail }).after (.audioPlay (fMod num s.cfg (fBuild s.tb)) .ok) } := by
  cases room : roomToSend s.cfg (fBuild s.tb) with
  | false => cases (xmitBody_of_no_room room).symm.trans h
  | true =>
    cases answer : (nextPlay s).1 with
    | ok =>
      cases (xmitBody_of_room room answer rfl).symm.trans h
      rfl
    | fail => cases (xmitBody_of_room room answer rfl).symm.trans h

/-- What a step of the sequencer does at the interfaces: only T_XMIT plays, only T_REMOVE removes. -/
theorem sequencerStep_sends (num : Numerics) :
    NothingSent s.env (sequencerStep num s).env
    ∨ (s.phase = .tXmit ∧ removals (sequencerStep num s).env.calls = removals s.env.calls
      ∧ (sequencerStep num s).env.outbox = s.env.outbox)
    ∨ (s.phase = .tRemove ∧ ∃ r, (sequencerStep num s).env.calls = .outboxRemove s.entryH r :: s.env.calls) := by
  cases phase : s.phase with
  | idle =>
    rw [sequencerStep_of_idle num phase]
    exact .inl (.refl s.env)
  | halt =>
    rw [sequencerStep, phase]
    exact .inl (.refl s.env)
  | tCheck =>
    rw [sequencerStep_of_check num phase rfl]
    exact .inl (.endTickStep (nothingSent_checkBody (clearTick s)) _ _ fun _ => rfl)
  | tSense =>
    rw [sequencerStep_of_sense phase rfl]
    exact .inl (.endTickStep (nothingSent_captureBody s num _) _ _ senseDone_env)
  | tXmit =>
    have step : (sequencerStep num s).env = (xmitBody num s).state.env := by
      rw [sequencerStep_of_xmit phase rfl]
      exact endTickStep_env _ _ _ fun _ => rfl
    rw [step]
    rcases xmitBody_env s num with env | ⟨r, env⟩ <;> rw [env] <;> exact .inr (.inl ⟨rfl, rfl, rfl⟩)
  | tRemove =>
    obtain ⟨r, calls, -⟩ := sequencerStep_of_remove_ends num phase
    exact .inr (.inr ⟨rfl, r, calls⟩)
  | tListen =>
    rw [sequencerStep_of_listen num phase rfl]
    exact .inl (.endTickStep (nothingSent_listenBody s _) _ _ fun _ => rfl)
  | tEnd =>
    rw [sequencerStep_of_end num phase]
    exact .inl (.refl s.env)
  | tGap =>
    rw [sequencerStep_of_gap num phase]
    exact .inl ⟨rfl, rfl, rfl⟩

end

/-! ## What leads to T_REMOVE (R205 (a)) -/

theorem endTickStep_phase_ne {p : Phase} (running : p ≠ .halt) (flag : FaultFlag) (cause : Cause) (b : Body)
    {done : State → State} (hd : ∀ u, (done u).phase ≠ p) : (endTickStep flag cause b done).phase ≠ p := by
  rcases endTickStep_cases flag cause b done with halted | ⟨u, -, ended⟩
  · exact halted ▸ running.symm
  · exact ended ▸ hd u

/-- T_REMOVE is entered only from T_XMIT, after a transmit body that is done. -/
theorem xmit_of_sequencerStep_remove {num : Numerics} {s : State} (h : (sequencerStep num s).phase = .tRemove) :
    s.phase = .tXmit ∧ ∃ u, xmitBody num s = .done u ∧ sequencerStep num s = u.setPhase .tRemove := by
  have running : Phase.tRemove ≠ .halt := by decide
  cases phase : s.phase with
  | idle =>
    rw [sequencerStep_of_idle num phase, phase] at h
    cases h
  | halt =>
    rw [sequencerStep, phase] at h
    cases phase.symm.trans h
  | tCheck =>
    rw [sequencerStep_of_check num phase rfl] at h
    refine absurd h (endTickStep_phase_ne running _ _ _ fun u => ?_)
    cases u.entryV <;> simp
  | tSense =>
    rw [sequencerStep_of_sense phase rfl] at h
    refine absurd h (endTickStep_phase_ne running _ _ _ fun u => ?_)
    rcases senseDone_cases u with e | e <;> rw [e] <;> exact Phase.noConfusion
  | tXmit =>
    have step := sequencerStep_of_xmit (num := num) phase rfl
    refine ⟨rfl, ?_⟩
    rcases endTickStep_cases _ _ _ _ with halted | ⟨u, body, ended⟩
    · rw [step, halted] at h
      cases h
    · exact ⟨u, body, step.trans ended⟩
  | tRemove =>
    obtain ⟨-, -, -, ended, -⟩ := sequencerStep_of_remove_ends num phase
    cases ended.symm.trans h
  | tListen =>
    rw [sequencerStep_of_listen num phase rfl] at h
    exact absurd h (endTickStep_phase_ne running _ _ _ fun u => Phase.noConfusion)
  | tEnd =>
    rw [sequencerStep_of_end num phase, tEnd] at h
    cases hl : s.loop <;> simp [hl] at h
  | tGap =>
    rw [sequencerStep_of_gap num phase] at h
    cases h

end Sys2Proof.Machine
end

section
/-! PROOF. The statements of 44_scheduler about whole ticks. -/

namespace Sys2Proof.Machine

/-- Settles O56: from T_END back to T_CHECK, each phase has its bound (`tickEndsWithin_of_check`). -/
theorem everyTickEndsWithinFiveSteps : Obligations.EveryTickEndsWithinFiveSteps := by
  unfold Obligations.EveryTickEndsWithinFiveSteps
  exact fun num s check => tickEndsWithin_of_check check

/-- Settles O57: what a step does at the interfaces is said once (`sequencerStep_sends`), and T_REMOVE is entered after
a transmit body that is done (`xmit_of_sequencerStep_remove`). -/
theorem removalFollowsPlaybackOfTheSameTick : Obligations.RemovalFollowsPlaybackOfTheSameTick := by
  unfold Obligations.RemovalFollowsPlaybackOfTheSameTick
  rintro num s _ rfl
  refine ⟨fun plays => ?_, fun removes => ?_, fun deletes => ?_, fun entered => ?_, fun inv xmit => ?_⟩
  · rcases sequencerStep_sends s num with nothing | ⟨xmit, -⟩ | ⟨-, r, calls⟩
    · exact absurd nothing.played_same plays
    · exact xmit
    · exact absurd (by rw [calls]; rfl) plays
  · rcases sequencerStep_sends s num with nothing | ⟨-, same, -⟩ | ⟨remove, r, calls⟩
    · exact absurd nothing.removals_same removes
    · exact absurd same removes
    · exact ⟨remove, by rw [calls]; rfl⟩
  · rcases sequencerStep_sends s num with nothing | ⟨-, -, same⟩ | ⟨remove, -⟩
    · exact absurd nothing.outbox_same deletes
    · exact absurd same deletes
    · exact remove
  · obtain ⟨xmit, u, body, step⟩ := xmit_of_sequencerStep_remove entered
    rw [step, xmitBody_eq_done s body]
    exact ⟨xmit, rfl, rfl, rfl⟩
  · have consistent := inv.phase_consistent
    simp only [PhaseConsistent, xmit] at consistent
    obtain ⟨held, read, free, -⟩ := consistent
    exact ⟨held, read, free⟩

end Sys2Proof.Machine
end

section
/-! SUPPORT. Laws for the statements of 44_scheduler about a tick from T_CHECK to its end, the device's answers being
pending (R205 (c), (d)). -/

namespace Sys2Proof.Machine

section
variable {s : State}

theorem nextRecord_fst_of_pending {r : RecordReply} {rest : List RecordReply} (h : s.env.records = r :: rest) :
    (nextRecord s).1 = r := by rw [nextRecord_pending h]

theorem nextPlay_fst_of_pending {r : Reply} {rest : List Reply} (h : s.env.plays = r :: rest) :
    (nextPlay s).1 = r := by rw [nextPlay_pending h]

theorem nextFirst_fst_of_pending {r : FirstReply} {rest : List FirstReply} (h : s.env.firsts = r :: rest) :
    (nextFirst s).1 = r := by rw [nextFirst_pending h]

theorem nextRemove_fst_of_pending {r : Reply} {rest : List Reply} (h : s.env.removes = r :: rest) :
    (nextRemove s).1 = r := by rw [nextRemove_pending h]

theorem sequencerRun_succ {num : Numerics} {t : State} {k : Nat} (step : sequencerStep num s = t) :
    sequencerRun num (k + 1) s = sequencerRun num k t := by
  rw [sequencerRun, step]

/-- The end of a tick that TICK started (R199). -/
theorem sequencerStep_of_last_end (num : Numerics) (ended : s.phase = .tEnd) (once : s.loop = false) :
    sequencerStep num s = { s with resVal := BitVec.ofNat 32 s.outcome.code, phase := .idle } := by
  rw [sequencerStep_of_end num ended, tEnd, once]
  rfl

end

/-! ## The rows of a tick that finds an entry (R203) -/

/-- `s` after T_CHECK has taken over the entry `e`. -/
def State.holding (s : State) (e : Entry) : State :=
  { s with
    entryV := true, entryH := e.handle, tb := e.text, chanV := false, chan := .free, outcome := .none
    resCode := .ok, resVal := 0#32, phase := .tSense
    env := ({ s.env with firsts := s.env.firsts.tail }).after (.outboxFirst (.some e.handle e.text)) }

/-- `s` with the samples `x` recorded into SB and their bits into BB. -/
def State.recorded (s : State) (num : Numerics) (x : List Sample) : State :=
  { s with
    sb := x, bb := fDemod num s.cfg x
    env := ({ s.env with records := s.env.records.tail }).after (.audioRecord x.length .ok) }

section
variable {num : Numerics} {s : State}

theorem sequencerStep_of_found {k : Nat} {e : Entry} (check : s.phase = .tCheck) (answer : (nextFirst s).1 = .pick k)
    (found : s.env.outbox[k]? = some e) (room : fits s.cfg.tbCap e.text.length = true) :
    sequencerStep num s = s.holding e := by
  rw [← nextFirst_clearTick s] at answer
  rw [sequencerStep_of_check num check (checkBody_of_found answer (getElem?_mod_length found) rfl), clearTick_cfg,
    if_pos room]
  rfl

section
variable {n : Nat} {heard : List Sample} (sense : s.phase = .tSense) (length : n = samplesOf s.cfg s.cfg.tSenseMs)
  (nonzero : n ≠ 0) (sb : fits s.cfg.sbCap n = true) (bb : fits s.cfg.bbCap (n / chunkLen s.cfg) = true)
  (answer : (nextRecord s).1 = .ok heard) (whole : heard.length = n)
include sense length nonzero sb bb answer whole

theorem sequencerStep_of_whole_recording : sequencerStep num s = senseDone (s.recorded num heard) := by
  subst length
  have room : roomToRecord s.cfg (samplesOf s.cfg s.cfg.tSenseMs) = true := Bool.and_eq_true_iff.mpr ⟨sb, bb⟩
  rw [sequencerStep_of_sense sense (captureBody_of_recorded room (audioRecord_of_ok nonzero answer)),
    recording_exact whole, State.recorded, whole]
  rfl

theorem sequencerStep_of_quiet (quiet : (fDemod num s.cfg heard).length ≤ s.cfg.noiseBits) :
    sequencerStep num s = { s.recorded num heard with chanV := true, chan := .free, phase := .tXmit } := by
  rw [sequencerStep_of_whole_recording sense length nonzero sb bb answer whole, senseDone_of_free quiet]

theorem sequencerStep_of_noisy (noisy : s.cfg.noiseBits < (fDemod num s.cfg heard).length) : sequencerStep num s =
    { s.recorded num heard with
      chanV := true, chan := .busy, resCode := .channelBusyContention, phase := .tListen } := by
  rw [sequencerStep_of_whole_recording sense length nonzero sb bb answer whole, senseDone_of_busy noisy]

end

theorem sequencerStep_of_played {text : Text} (xmit : s.phase = .tXmit) (loaded : s.tb = text)
    (bb : fits s.cfg.bbCap (fBuild text).length = true)
    (sb : fits s.cfg.sbCap (chunkLen s.cfg * (fBuild text).length) = true)
    (answer : (nextPlay s).1 = .ok) : sequencerStep num s = { s with
      bb := fBuild text, sb := fMod num s.cfg (fBuild text), phase := .tRemove
      env := ({ s.env with plays := s.env.plays.tail }).after (.audioPlay (fMod num s.cfg (fBuild text)) .ok) } := by
  subst loaded
  have room : roomToSend s.cfg (fBuild s.tb) = true := Bool.and_eq_true_iff.mpr ⟨bb, sb⟩
  rw [sequencerStep_of_xmit xmit (xmitBody_of_room room answer rfl)]
  rfl

end

end Sys2Proof.Machine
end

section
/-! PROOF. The statements of 44_scheduler about a tick from T_CHECK to its end. -/

namespace Sys2Proof.Machine

/-- Settles O58: the five steps one after another, each by the law of its row; the pending answers are at hand when
their step comes. -/
theorem freeTickSendsAndDeletes : Obligations.FreeTickSendsAndDeletes := by
  unfold Obligations.FreeTickSendsAndDeletes
  intro num s k n e heard fs rs ps ms check once first found record play remove length nonzero whole quiet
    roomTb roomSb roomBb roomFrame roomTones
  obtain rfl : s.env.firsts.tail = fs := congrArg List.tail first
  obtain rfl : s.env.records.tail = rs := congrArg List.tail record
  obtain rfl : s.env.plays.tail = ps := congrArg List.tail play
  obtain rfl : s.env.removes.tail = ms := congrArg List.tail remove
  refine Eq.trans (sequencerRun_succ
    (sequencerStep_of_found check (nextFirst_fst_of_pending first) found roomTb)) ?_
  refine Eq.trans (sequencerRun_succ
    (sequencerStep_of_quiet rfl length nonzero roomSb roomBb (nextRecord_fst_of_pending record) whole quiet)) ?_
  refine Eq.trans (sequencerRun_succ
    (sequencerStep_of_played rfl rfl roomFrame roomTones (nextPlay_fst_of_pending play))) ?_
  refine Eq.trans (sequencerRun_succ
    (sequencerStep_of_remove num rfl (removeEntry_of_ok (nextRemove_fst_of_pending remove)))) ?_
  rw [← whole]
  exact sequencerRun_succ (sequencerStep_of_last_end num rfl once)

/-- Settles O59: the four steps one after another, each by the law of its row; the second recording takes the second
pending answer. -/
theorem busyTickKeepsTheEntry : Obligations.BusyTickKeepsTheEntry := by
  unfold Obligations.BusyTickKeepsTheEntry
  rintro num s k n l e heard other fs rs check once first found record length nonzero whole rfl long noisy
    roomTb roomSb roomBb
  have later : s.env.records.tail = .ok other :: rs := congrArg List.tail record
  obtain rfl : s.env.firsts.tail = fs := congrArg List.tail first
  obtain rfl : s.env.records.tail.tail = rs := congrArg List.tail later
  refine Eq.trans (sequencerRun_succ
    (sequencerStep_of_found check (nextFirst_fst_of_pending first) found roomTb)) ?_
  refine Eq.trans (sequencerRun_succ
    (sequencerStep_of_noisy rfl length nonzero roomSb roomBb (nextRecord_fst_of_pending record) whole noisy)) ?_
  refine Eq.trans (sequencerRun_succ (sequencerStep_of_listen num rfl
    (listenBody_of_recorded (audioRecord_of_ok long (nextRecord_fst_of_pending later))))) ?_
  rw [← whole]
  exact sequencerRun_succ (sequencerStep_of_last_end num rfl once)

end Sys2Proof.Machine
end

section
/-! SUPPORT. Laws for the statements of 45_standalone: the bits of a frame between undetermined chunks (R128, R129), and
RECV in each case of its recording (R220). -/

namespace Sys2Proof.Machine

/-! ## The bits of an aligned frame (R128, R129) -/

section
variable {num : Numerics} {c : Cfg}

/-- Chunks that decode to no bit leave no trace in front of what follows them. -/
theorem fDemod_undetermined_append (hn : 0 < chunkLen c) {xs : List (List Sample)}
    (undetermined : ∀ x ∈ xs, x.length = chunkLen c ∧ fDecbit num c x = none) (rest : List Sample) :
    fDemod num c (xs.flatten ++ rest) = fDemod num c rest := by
  induction xs with
  | nil => rfl
  | cons x xs ih =>
    obtain ⟨⟨length, none⟩, others⟩ := List.forall_mem_cons.mp undetermined
    rw [List.flatten_cons, List.append_assoc, fDemod_append _ hn length, none, ih others]
    rfl

/-- R131, with samples behind the modulated bits. -/
theorem ToneRoundTrip.fDemod_fMod_append (h : ToneRoundTrip num c) (hn : 0 < chunkLen c) (bits : Bitstream)
    (rest : List Sample) : fDemod num c (fMod num c bits ++ rest) = bits ++ fDemod num c rest := by
  induction bits with
  | nil => rfl
  | cons b bits ih =>
    rw [fMod_cons, List.append_assoc, fDemod_append _ hn (fEncbit_length num c b), h.fDecbit_fEncbit, ih]
    rfl

theorem ToneRoundTrip.fDemod_between_undetermined (h : ToneRoundTrip num c) (hn : 0 < chunkLen c)
    {before after : List (List Sample)}
    (undetermined : ∀ x ∈ before ++ after, x.length = chunkLen c ∧ fDecbit num c x = none) (bits : Bitstream) :
    fDemod num c (before.flatten ++ fMod num c bits ++ after.flatten) = bits := by
  obtain ⟨first, last⟩ := List.forall_mem_append.mp undetermined
  have silent : fDemod num c after.flatten = [] := by simpa using fDemod_undetermined_append hn last []
  rw [List.append_assoc, fDemod_undetermined_append hn first, h.fDemod_fMod_append hn, silent, List.append_nil]

end

/-! ## RECV, case by case of its recording (R220) -/

section
variable {num : Numerics} {ms : Nat} {s t : State}

theorem recvOp_of_no_room (room : roomToRecord s.cfg (samplesOf s.cfg ms) = false) :
    recvOp num ms s = refuse .badOperand s := by
  rw [recvOp, recvBody, captureBody_of_no_room room]
  rfl

theorem recvOp_of_failed (room : roomToRecord s.cfg (samplesOf s.cfg ms) = true)
    (failed : audioRecord (samplesOf s.cfg ms) s = (none, t)) :
    recvOp num ms s = raiseFault .capture .captureFailure t := by
  rw [recvOp, recvBody, captureBody_of_failed room failed]
  rfl

section
variable {x : List Sample} (room : roomToRecord s.cfg (samplesOf s.cfg ms) = true)
  (recorded : audioRecord (samplesOf s.cfg ms) s = (some x, t))
include room recorded

theorem recvOp_of_payload_fits (fit : fits s.cfg.tbCap (fParse (fDemod num s.cfg x)).payload.length = true) :
    recvOp num ms s = parseOp ((t.setSb x).setBb (fDemod num s.cfg x)) := by
  rw [recvOp, recvBody, captureBody_of_recorded room recorded]
  exact congrArg (endCommand _ _ · parseOp) (if_pos fit)

/-- RECV in IDLE ends as PARSE on what it has kept. -/
theorem exec_parse_of_recorded (idle : s.phase = .idle)
    (fit : fits s.cfg.tbCap (fParse (fDemod theNum s.cfg x)).payload.length = true) :
    exec .parse ((t.setSb x).setBb (fDemod theNum s.cfg x)) = .next (recvOp theNum ms s) := by
  obtain ⟨env, same, -⟩ := audioRecord_cases (samplesOf s.cfg ms) s
  obtain rfl : t = s.withEnv env := by rw [recorded] at same; exact same
  rw [recvOp_of_payload_fits room recorded fit]
  exact exec_of_idle (s := ((s.withEnv env).setSb x).setBb _) idle .parse

/-- A payload that does not fit TB leaves the buffers as they were, the recording having been made (log entry 13). -/
theorem recvOp_of_payload_too_long
    (long : ¬ fits s.cfg.tbCap (fParse (fDemod num s.cfg x)).payload.length = true) :
    recvOp num ms s = refuse .badOperand (s.withEnv t.env) := by
  rw [recvOp, recvBody, captureBody_of_recorded room recorded]
  exact congrArg (endCommand _ _ · parseOp) (if_neg long)

end

end

/-- PARSE on the bits of a frame whose text fits TB (R167). -/
theorem parseOp_setBb_of_ok {s : State} {bits : Bitstream} {p : Text} (parsed : fParse bits = .ok p)
    (fit : fits s.cfg.tbCap p.length = true) :
    parseOp (s.setBb bits) = ((s.setBb bits).setTb p).setRes .ok 0#32 := by
  rw [parseOp, setBb_bb, parsed]
  exact if_pos fit

end Sys2Proof.Machine
end

section
/-! PROOF. The statements of 45_standalone. -/

namespace Sys2Proof.Machine

/-- Settles O36: the undetermined chunks drop out, so the bits of the recording are the frame, and a frame parses to its
text. -/
theorem alignedFrameIsReceived : Obligations.AlignedFrameIsReceived := by
  unfold Obligations.AlignedFrameIsReceived
  intro num s ms before after heard text tones hn undetermined content ascii length answer roomSb roomBb roomTb
  have bits : fDemod num s.cfg heard = fBuild text := by rw [content, tones.fDemod_between_undetermined hn undetermined]
  have parsed : fParse (fBuild text) = .ok text := frameRoundTrip.1 text ascii
  have nonzero : samplesOf s.cfg ms ≠ 0 := by
    have frame : 0 < chunkLen s.cfg * (fBuild text).length := Nat.mul_pos hn (by rw [fBuild_length]; omega)
    rw [length, content, List.length_append, List.length_append, fMod_length]
    omega
  have room : roomToRecord s.cfg (samplesOf s.cfg ms) = true := by
    rw [length, roomToRecord, roomSb, roomBb, Bool.and_self]
  have recorded := audioRecord_of_ok nonzero answer
  rw [recording_exact length.symm] at recorded
  rw [← length, recvOp_of_payload_fits room recorded (by rw [bits, parsed]; exact roomTb), bits,
    parseOp_setBb_of_ok parsed]
  · rfl
  · exact roomTb

/-- Settles O46, case by case of the recording: no room, nothing to record, samples heard with each result of F_PARSE, a
failure. -/
theorem recvRecordsAndParses : Obligations.RecvRecordsAndParses := by
  unfold Obligations.RecvRecordsAndParses
  rintro ms _ s idle (rfl : _ = samplesOf s.cfg ms)
  rw [exec_of_idle idle, commandOp]
  refine ⟨fun noRoom => congrArg _ (recvOp_of_no_room noRoom),
    fun room => ⟨fun zero => ?_, fun heard nonzero answer => ?_,
      fun nonzero answer => congrArg _ (recvOp_of_failed room (audioRecord_of_fail nonzero answer))⟩⟩
  · rw [recvOp_of_payload_fits room (audioRecord_of_zero zero) (by rw [fDemod_nil]; exact fits_zero _), fDemod_nil]
    rfl
  · have recorded := audioRecord_of_ok nonzero answer
    refine ⟨recording _ s.env.draws heard, _, _, recording_length _ _ _, recording_take _ _ _, recording_exact,
      rfl, rfl, ?_⟩
    have kept := exec_parse_of_recorded room recorded idle
    have refused := recvOp_of_payload_too_long (num := theNum) room recorded
    cases parsed : fParse (fDemod theNum s.cfg (recording (samplesOf s.cfg ms) s.env.draws heard)) with
    | ok p | crcMismatch p =>
      rw [parsed] at kept refused
      by_cases fit : fits s.cfg.tbCap p.length = true
      · exact (if_pos fit).mpr (kept fit)
      · exact (if_neg fit).mpr (refused fit)
    | syncNotFound | malformedEncoding =>
      rw [parsed] at kept
      exact kept (fits_zero _)

end Sys2Proof.Machine
end

section
/-! SUPPORT. Laws for the statements of 60_exceptions: a command written outside IDLE is examined no further (R246,
R248(a)), and no effect of a step puts CoreBusy into RES_CODE (R246). -/

namespace Sys2Proof.Machine

/-! ## A command outside IDLE (R246, R248(a)) -/

/-- Legal or illegal, a command word is accepted only in IDLE (60_exceptions R248(a)). -/
theorem exists_runMove_command_eq_whenIdle (w : Word) (s : State) :
    ∃ op, runMove (.command w s) = whenIdle s op := by
  cases decoded : decode w with
  | ok i => exact ⟨commandOp i, (runMove_command_ok decoded s).trans (exec_eq_whenIdle i s)⟩
  | error e => exact ⟨refuse .illegalOp, runMove_command_error decoded s⟩

theorem runMove_command_of_busy {s : State} (busy : s.phase ≠ .idle) (w : Word) :
    runMove (.command w s) = .next (coreBusy s) := by
  obtain ⟨op, accepted⟩ := exists_runMove_command_eq_whenIdle w s
  rw [accepted, whenIdle_busy busy]

/-! ## The causes that are stored in RES_CODE (R239, R246) -/

theorem BufferWrite.resCode_eq {s t : State} (h : BufferWrite s t) : t.resCode = s.resCode := by rw [h.rest_kept]

theorem raiseFault_resCode (flag : FaultFlag) (cause : Cause) (s : State) :
    (raiseFault flag cause s).resCode = cause := by
  rw [raiseFault_eq]

theorem ne_coreBusy_of_mem_faultCauses {cause : Cause} (mem : cause ∈ faultCauses) : cause ≠ .coreBusy := by
  rintro rfl
  exact absurd mem (by decide)

theorem CommandEffect.resCode_ne_coreBusy {s t : State} (h : CommandEffect s t) : t.resCode ≠ .coreBusy := by
  cases h with
  | completed _ stored => exact stored
  | removeFailed => exact Cause.noConfusion
  | faulted _ _ mem =>
    rw [raiseFault_resCode]
    exact ne_coreBusy_of_mem_faultCauses mem

/-- A step of a tick raises the cause of a fault, or its body keeps RES_CODE and its end is reached. -/
theorem endTickStep_resCode_ne_coreBusy {s : State} (stored : s.resCode ≠ .coreBusy) {b : Body}
    (written : BufferWrite s b.state) (flag : FaultFlag) {cause : Cause} (mem : cause ∈ faultCauses)
    {done : State → State} (hd : ∀ u, u.resCode ≠ .coreBusy → (done u).resCode ≠ .coreBusy) :
    (endTickStep flag cause b done).resCode ≠ .coreBusy := by
  cases b with
  | done u => exact hd u (written.resCode_eq ▸ stored)
  | tooLarge u =>
    rw [endTickStep, raiseFault_resCode]
    decide
  | deviceFailed u =>
    rw [endTickStep, raiseFault_resCode]
    exact ne_coreBusy_of_mem_faultCauses mem

theorem senseDone_resCode_ne_coreBusy {u : State} (stored : u.resCode ≠ .coreBusy) :
    (senseDone u).resCode ≠ .coreBusy := by
  rcases senseDone_cases u with e | e <;> rw [e]
  · exact Cause.noConfusion
  · exact stored

theorem tRemove_resCode_ne_coreBusy {s : State} (stored : s.resCode ≠ .coreBusy) :
    (tRemove s).resCode ≠ .coreBusy := by
  obtain ⟨env, ⟨e, -⟩ | ⟨e, -⟩, -⟩ := removeEntry_cases s <;> rw [tRemove, e]
  · exact stored
  · exact Cause.noConfusion

/-- Of the steps of a tick only T_CHECK, T_SENSE, T_REMOVE and a fault write RES_CODE (44_scheduler R203). -/
theorem sequencerStep_resCode_ne_coreBusy (num : Numerics) {s : State} (stored : s.resCode ≠ .coreBusy) :
    (sequencerStep num s).resCode ≠ .coreBusy := by
  unfold sequencerStep
  cases s.phase with
  | idle | halt | tEnd | tGap => exact stored
  | tCheck =>
    exact endTickStep_resCode_ne_coreBusy (s := clearTick s) Cause.noConfusion (bufferWrite_checkBody _) _ (by decide)
      fun _ => id
  | tSense =>
    exact endTickStep_resCode_ne_coreBusy stored (bufferWrite_captureBody num _ s) _ (by decide)
      fun _ => senseDone_resCode_ne_coreBusy
  | tXmit => exact endTickStep_resCode_ne_coreBusy stored (bufferWrite_xmitBody num s) _ (by decide) fun _ => id
  | tRemove => exact tRemove_resCode_ne_coreBusy stored
  | tListen => exact endTickStep_resCode_ne_coreBusy stored (bufferWrite_listenBody _ s) _ (by decide) fun _ => id

theorem StepEffect.resCode_ne_coreBusy {s t : State} (h : StepEffect s t) (stored : s.resCode ≠ .coreBusy) :
    t.resCode ≠ .coreBusy := by
  cases h with
  | env => exact stored
  | load _ written => exact written.resCode_eq ▸ stored
  | command _ effect => exact effect.resCode_ne_coreBusy
  | start => exact stored
  | sequencer _ e => exact sequencerStep_resCode_ne_coreBusy theNum (s := s.withEnv e) stored
  | reset => exact Cause.noConfusion

end Sys2Proof.Machine
end

section
/-! PROOF. The statements of 60_exceptions. -/

namespace Sys2Proof.Machine

/-- Settles O7: outside IDLE a command word, decoded or not, is only noted in the record (`runMove_command_of_busy`),
and every effect a step can have (`StepEffect`) stores another cause than CoreBusy or none. -/
theorem commandsOutsideIdleAreDiscarded : Obligations.CommandsOutsideIdleAreDiscarded := by
  unfold Obligations.CommandsOutsideIdleAreDiscarded
  refine ⟨fun s w rest hv busy hi => ?_, rfl, fun s t stored h => (stepEffect_of_step h).resCode_ne_coreBusy stored⟩
  rw [step_of_command hv hi]
  exact runMove_command_of_busy (s := s.withEnv { s.env with inputs := rest }) busy w

end Sys2Proof.Machine
end
